-- ==== Sys2Proof/Word.lean ====
section
/-! DEFINITION. The bit-vector types of the machine (00_scope.md R7, R8, R10, R11). -/

namespace Sys2Proof

/-- A 32-bit word: the width of a register, an operand, a result and an address (R7, R8, R11). -/
abbrev Word := BitVec 32

/-- The addressable unit, eight bits (R8). -/
abbrev Byte := BitVec 8

/-- A register field: the number 0 to 15 of one of the registers R0 to R15 (10_state.md R20). -/
abbrev Reg := BitVec 4

/-- R15, the program counter (R21). -/
abbrev regPC : Reg := 15#4

/-- R14, the link register (R21). -/
abbrev regLR : Reg := 14#4

/-- R13, the stack pointer of the source's examples (R21). -/
abbrev regSP : Reg := 13#4

end Sys2Proof
end

