-- ==== Sys2Proof/Syntax.lean ====
section
/-! DEFINITION. The instructions: one constructor of `Instr` per row of spec/opcode_table.json, in the table's
order, each with every field of its row. A field the instruction ignores (30_encoding.md R106) is kept, so that
an instruction determines its word. -/

namespace Sys2Proof

/-- The sixteen values of the condition field (41_conditional_execution.md R180). -/
inductive Cond where
  | eq | ne | cs | cc | mi | pl | vs | vc | hi | ls | ge | lt | gt | le | al | nv
deriving DecidableEq, Repr

/-- The sixteen values of the data-processing opcode field (30_encoding.md R88). -/
inductive DpOp where
  | and | eor | sub | rsb | add | adc | sbc | rsc | tst | teq | cmp | cmn | orr | mov | bic | mvn
deriving DecidableEq, Repr

/-- The kinds of shift the field LA selects (30_encoding.md R83). -/
inductive ShiftKind where
  | lsl | lsr | asr | ror
deriving DecidableEq, Repr

/-- Operand 2, immediate form: the fields Rotate and Imm (30_encoding.md R87). -/
structure RotImm where
  rot : BitVec 4
  imm : BitVec 8
deriving DecidableEq, Repr

/-- A register shifted by an immediate amount: the fields Shift, LA and Rm of operand 2 in form reg3
(30_encoding.md R85) and of the register offset of LDR and STR (R92). -/
structure ShiftedReg where
  amount : BitVec 5
  kind : ShiftKind
  rm : Reg
deriving DecidableEq, Repr

/-- Operand 2, form reg4: the fields Rs, LA and Rm (30_encoding.md R86). -/
structure RegShiftedReg where
  rs : Reg
  kind : ShiftKind
  rm : Reg
deriving DecidableEq, Repr

/-- The bits P, U and W of a transfer instruction (30_encoding.md R92, R93). -/
structure Indexing where
  p : Bool
  u : Bool
  w : Bool
deriving DecidableEq, Repr

/-- The instruction set (30_encoding.md R80): 83 constructors for the 83 rows of the opcode table. -/
inductive Instr where
  /-- AND with an immediate operand 2 (40_data_processing.md R130). -/
  | andImm (cond : Cond) (setFlags : Bool) (rn rd : Reg) (op2 : RotImm)
  /-- AND with a register shifted by an immediate (R130). -/
  | andReg3 (cond : Cond) (setFlags : Bool) (rn rd : Reg) (op2 : ShiftedReg)
  /-- AND with a register shifted by a register (R130). -/
  | andReg4 (cond : Cond) (setFlags : Bool) (rn rd : Reg) (op2 : RegShiftedReg)
  /-- EOR with an immediate operand 2 (40_data_processing.md R132). -/
  | eorImm (cond : Cond) (setFlags : Bool) (rn rd : Reg) (op2 : RotImm)
  /-- EOR with a register shifted by an immediate (R132). -/
  | eorReg3 (cond : Cond) (setFlags : Bool) (rn rd : Reg) (op2 : ShiftedReg)
  /-- EOR with a register shifted by a register (R132). -/
  | eorReg4 (cond : Cond) (setFlags : Bool) (rn rd : Reg) (op2 : RegShiftedReg)
  /-- SUB with an immediate operand 2 (40_data_processing.md R135). -/
  | subImm (cond : Cond) (setFlags : Bool) (rn rd : Reg) (op2 : RotImm)
  /-- SUB with a register shifted by an immediate (R135). -/
  | subReg3 (cond : Cond) (setFlags : Bool) (rn rd : Reg) (op2 : ShiftedReg)
  /-- SUB with a register shifted by a register (R135). -/
  | subReg4 (cond : Cond) (setFlags : Bool) (rn rd : Reg) (op2 : RegShiftedReg)
  /-- RSB with an immediate operand 2 (40_data_processing.md R136). -/
  | rsbImm (cond : Cond) (setFlags : Bool) (rn rd : Reg) (op2 : RotImm)
  /-- RSB with a register shifted by an immediate (R136). -/
  | rsbReg3 (cond : Cond) (setFlags : Bool) (rn rd : Reg) (op2 : ShiftedReg)
  /-- RSB with a register shifted by a register (R136). -/
  | rsbReg4 (cond : Cond) (setFlags : Bool) (rn rd : Reg) (op2 : RegShiftedReg)
  /-- ADD with an immediate operand 2 (40_data_processing.md R133). -/
  | addImm (cond : Cond) (setFlags : Bool) (rn rd : Reg) (op2 : RotImm)
  /-- ADD with a register shifted by an immediate (R133). -/
  | addReg3 (cond : Cond) (setFlags : Bool) (rn rd : Reg) (op2 : ShiftedReg)
  /-- ADD with a register shifted by a register (R133). -/
  | addReg4 (cond : Cond) (setFlags : Bool) (rn rd : Reg) (op2 : RegShiftedReg)
  /-- ADC with an immediate operand 2 (40_data_processing.md R134). -/
  | adcImm (cond : Cond) (setFlags : Bool) (rn rd : Reg) (op2 : RotImm)
  /-- ADC with a register shifted by an immediate (R134). -/
  | adcReg3 (cond : Cond) (setFlags : Bool) (rn rd : Reg) (op2 : ShiftedReg)
  /-- ADC with a register shifted by a register (R134). -/
  | adcReg4 (cond : Cond) (setFlags : Bool) (rn rd : Reg) (op2 : RegShiftedReg)
  /-- SBC with an immediate operand 2 (40_data_processing.md R137). -/
  | sbcImm (cond : Cond) (setFlags : Bool) (rn rd : Reg) (op2 : RotImm)
  /-- SBC with a register shifted by an immediate (R137). -/
  | sbcReg3 (cond : Cond) (setFlags : Bool) (rn rd : Reg) (op2 : ShiftedReg)
  /-- SBC with a register shifted by a register (R137). -/
  | sbcReg4 (cond : Cond) (setFlags : Bool) (rn rd : Reg) (op2 : RegShiftedReg)
  /-- RSC with an immediate operand 2 (40_data_processing.md R138). -/
  | rscImm (cond : Cond) (setFlags : Bool) (rn rd : Reg) (op2 : RotImm)
  /-- RSC with a register shifted by an immediate (R138). -/
  | rscReg3 (cond : Cond) (setFlags : Bool) (rn rd : Reg) (op2 : ShiftedReg)
  /-- RSC with a register shifted by a register (R138). -/
  | rscReg4 (cond : Cond) (setFlags : Bool) (rn rd : Reg) (op2 : RegShiftedReg)
  /-- TST with an immediate operand 2 (40_data_processing.md R141; Rd is ignored (R106)). -/
  | tstImm (cond : Cond) (rn rd : Reg) (op2 : RotImm)
  /-- TST with a register shifted by an immediate (R141; Rd is ignored (R106)). -/
  | tstReg3 (cond : Cond) (rn rd : Reg) (op2 : ShiftedReg)
  /-- TST with a register shifted by a register (R141; Rd is ignored (R106)). -/
  | tstReg4 (cond : Cond) (rn rd : Reg) (op2 : RegShiftedReg)
  /-- TEQ with an immediate operand 2 (40_data_processing.md R142; Rd is ignored (R106)). -/
  | teqImm (cond : Cond) (rn rd : Reg) (op2 : RotImm)
  /-- TEQ with a register shifted by an immediate (R142; Rd is ignored (R106)). -/
  | teqReg3 (cond : Cond) (rn rd : Reg) (op2 : ShiftedReg)
  /-- TEQ with a register shifted by a register (R142; Rd is ignored (R106)). -/
  | teqReg4 (cond : Cond) (rn rd : Reg) (op2 : RegShiftedReg)
  /-- CMP with an immediate operand 2 (40_data_processing.md R139; Rd is ignored (R106)). -/
  | cmpImm (cond : Cond) (rn rd : Reg) (op2 : RotImm)
  /-- CMP with a register shifted by an immediate (R139; Rd is ignored (R106)). -/
  | cmpReg3 (cond : Cond) (rn rd : Reg) (op2 : ShiftedReg)
  /-- CMP with a register shifted by a register (R139; Rd is ignored (R106)). -/
  | cmpReg4 (cond : Cond) (rn rd : Reg) (op2 : RegShiftedReg)
  /-- CMN with an immediate operand 2 (40_data_processing.md R140; Rd is ignored (R106)). -/
  | cmnImm (cond : Cond) (rn rd : Reg) (op2 : RotImm)
  /-- CMN with a register shifted by an immediate (R140; Rd is ignored (R106)). -/
  | cmnReg3 (cond : Cond) (rn rd : Reg) (op2 : ShiftedReg)
  /-- CMN with a register shifted by a register (R140; Rd is ignored (R106)). -/
  | cmnReg4 (cond : Cond) (rn rd : Reg) (op2 : RegShiftedReg)
  /-- ORR with an immediate operand 2 (40_data_processing.md R131). -/
  | orrImm (cond : Cond) (setFlags : Bool) (rn rd : Reg) (op2 : RotImm)
  /-- ORR with a register shifted by an immediate (R131). -/
  | orrReg3 (cond : Cond) (setFlags : Bool) (rn rd : Reg) (op2 : ShiftedReg)
  /-- ORR with a register shifted by a register (R131). -/
  | orrReg4 (cond : Cond) (setFlags : Bool) (rn rd : Reg) (op2 : RegShiftedReg)
  /-- MOV with an immediate operand 2 (40_data_processing.md R144; Rn is ignored (R106)). -/
  | movImm (cond : Cond) (setFlags : Bool) (rn rd : Reg) (op2 : RotImm)
  /-- MOV with a register shifted by an immediate (R144; Rn is ignored (R106)). -/
  | movReg3 (cond : Cond) (setFlags : Bool) (rn rd : Reg) (op2 : ShiftedReg)
  /-- MOV with a register shifted by a register (R144; Rn is ignored (R106)). -/
  | movReg4 (cond : Cond) (setFlags : Bool) (rn rd : Reg) (op2 : RegShiftedReg)
  /-- BIC with an immediate operand 2 (40_data_processing.md R143). -/
  | bicImm (cond : Cond) (setFlags : Bool) (rn rd : Reg) (op2 : RotImm)
  /-- BIC with a register shifted by an immediate (R143). -/
  | bicReg3 (cond : Cond) (setFlags : Bool) (rn rd : Reg) (op2 : ShiftedReg)
  /-- BIC with a register shifted by a register (R143). -/
  | bicReg4 (cond : Cond) (setFlags : Bool) (rn rd : Reg) (op2 : RegShiftedReg)
  /-- MVN with an immediate operand 2 (40_data_processing.md R145; Rn is ignored (R106)). -/
  | mvnImm (cond : Cond) (setFlags : Bool) (rn rd : Reg) (op2 : RotImm)
  /-- MVN with a register shifted by an immediate (R145; Rn is ignored (R106)). -/
  | mvnReg3 (cond : Cond) (setFlags : Bool) (rn rd : Reg) (op2 : ShiftedReg)
  /-- MVN with a register shifted by a register (R145; Rn is ignored (R106)). -/
  | mvnReg4 (cond : Cond) (setFlags : Bool) (rn rd : Reg) (op2 : RegShiftedReg)
  /-- MUL (43_multiply.md R220); Rn is ignored. -/
  | mul (cond : Cond) (setFlags : Bool) (rd rn rs rm : Reg)
  /-- MLA (R221). -/
  | mla (cond : Cond) (setFlags : Bool) (rd rn rs rm : Reg)
  /-- UMULL, tier 2 (R225). -/
  | umull (cond : Cond) (setFlags : Bool) (rdHi rdLo rs rm : Reg)
  /-- UMLAL, tier 2 (R225). -/
  | umlal (cond : Cond) (setFlags : Bool) (rdHi rdLo rs rm : Reg)
  /-- SMULL, tier 2 (R225). -/
  | smull (cond : Cond) (setFlags : Bool) (rdHi rdLo rs rm : Reg)
  /-- SMLAL, tier 2 (R225). -/
  | smlal (cond : Cond) (setFlags : Bool) (rdHi rdLo rs rm : Reg)
  /-- SWP (44_data_transfer.md R252). -/
  | swp (cond : Cond) (rn rd rm : Reg)
  /-- SWPB, tier 2 (R253). -/
  | swpb (cond : Cond) (rn rd rm : Reg)
  /-- LDRH with a register offset, tier 2 (R255). -/
  | ldrhReg (cond : Cond) (ix : Indexing) (rn rd rm : Reg)
  /-- LDRH with an immediate offset (immHi : immLo), tier 2 (R255). -/
  | ldrhImm (cond : Cond) (ix : Indexing) (rn rd : Reg) (off : BitVec 8)
  /-- STRH with a register offset, tier 2 (R256). -/
  | strhReg (cond : Cond) (ix : Indexing) (rn rd rm : Reg)
  /-- STRH with an immediate offset (immHi : immLo), tier 2 (R256). -/
  | strhImm (cond : Cond) (ix : Indexing) (rn rd : Reg) (off : BitVec 8)
  /-- LDRSB with a register offset, tier 2 (R257). -/
  | ldrsbReg (cond : Cond) (ix : Indexing) (rn rd rm : Reg)
  /-- LDRSB with an immediate offset (immHi : immLo), tier 2 (R257). -/
  | ldrsbImm (cond : Cond) (ix : Indexing) (rn rd : Reg) (off : BitVec 8)
  /-- LDRSH with a register offset, tier 2 (R258). -/
  | ldrshReg (cond : Cond) (ix : Indexing) (rn rd rm : Reg)
  /-- LDRSH with an immediate offset (immHi : immLo), tier 2 (R258). -/
  | ldrshImm (cond : Cond) (ix : Indexing) (rn rd : Reg) (off : BitVec 8)
  /-- BX (42_branch.md R202). -/
  | bx (cond : Cond) (rn : Reg)
  /-- MRS, tier 2; `ps` is bit 22 (46_status_register.md R302). -/
  | mrs (cond : Cond) (ps : Bool) (rd : Reg)
  /-- MSR from a register, whole PSR, tier 2; `pd` is bit 22 (R303). -/
  | msrReg (cond : Cond) (pd : Bool) (rm : Reg)
  /-- MSR from a register, flags, tier 2 (R303). -/
  | msrRegFlags (cond : Cond) (pd : Bool) (rm : Reg)
  /-- MSR from an immediate, flags, tier 2 (R303). -/
  | msrImmFlags (cond : Cond) (pd : Bool) (op2 : RotImm)
  /-- LDR with an immediate offset (44_data_transfer.md R244). -/
  | ldrImm (cond : Cond) (ix : Indexing) (rn rd : Reg) (off : BitVec 12)
  /-- LDR with a register offset (R244). -/
  | ldrReg (cond : Cond) (ix : Indexing) (rn rd : Reg) (off : ShiftedReg)
  /-- STR with an immediate offset (R245). -/
  | strImm (cond : Cond) (ix : Indexing) (rn rd : Reg) (off : BitVec 12)
  /-- STR with a register offset (R245). -/
  | strReg (cond : Cond) (ix : Indexing) (rn rd : Reg) (off : ShiftedReg)
  /-- LDRB with an immediate offset (R246). -/
  | ldrbImm (cond : Cond) (ix : Indexing) (rn rd : Reg) (off : BitVec 12)
  /-- LDRB with a register offset (R246). -/
  | ldrbReg (cond : Cond) (ix : Indexing) (rn rd : Reg) (off : ShiftedReg)
  /-- STRB with an immediate offset (R247). -/
  | strbImm (cond : Cond) (ix : Indexing) (rn rd : Reg) (off : BitVec 12)
  /-- STRB with a register offset (R247). -/
  | strbReg (cond : Cond) (ix : Indexing) (rn rd : Reg) (off : ShiftedReg)
  /-- LDM, bit 22 = 0; bit i of `list` stands for Ri (45_block_transfer.md R280, R288). -/
  | ldm (cond : Cond) (ix : Indexing) (rn : Reg) (list : BitVec 16)
  /-- STM, bit 22 = 0 (R280, R289). -/
  | stm (cond : Cond) (ix : Indexing) (rn : Reg) (list : BitVec 16)
  /-- LDM with bit 22 = 1, which this hardware does not support (R282). -/
  | ldmS (cond : Cond) (ix : Indexing) (rn : Reg) (list : BitVec 16)
  /-- STM with bit 22 = 1, which this hardware does not support (R282). -/
  | stmS (cond : Cond) (ix : Indexing) (rn : Reg) (list : BitVec 16)
  /-- B (42_branch.md R200). -/
  | b (cond : Cond) (off : BitVec 24)
  /-- BL (R201). -/
  | bl (cond : Cond) (off : BitVec 24)
deriving DecidableEq, Repr

/-- The condition field of an instruction; every instruction has one (41_conditional_execution.md R185). -/
def Instr.cond : Instr → Cond
  | .andImm c _ _ _ _ | .andReg3 c _ _ _ _ | .andReg4 c _ _ _ _ | .eorImm c _ _ _ _
  | .eorReg3 c _ _ _ _ | .eorReg4 c _ _ _ _ | .subImm c _ _ _ _ | .subReg3 c _ _ _ _
  | .subReg4 c _ _ _ _ | .rsbImm c _ _ _ _ | .rsbReg3 c _ _ _ _ | .rsbReg4 c _ _ _ _
  | .addImm c _ _ _ _ | .addReg3 c _ _ _ _ | .addReg4 c _ _ _ _ | .adcImm c _ _ _ _
  | .adcReg3 c _ _ _ _ | .adcReg4 c _ _ _ _ | .sbcImm c _ _ _ _ | .sbcReg3 c _ _ _ _
  | .sbcReg4 c _ _ _ _ | .rscImm c _ _ _ _ | .rscReg3 c _ _ _ _ | .rscReg4 c _ _ _ _
  | .tstImm c _ _ _ | .tstReg3 c _ _ _ | .tstReg4 c _ _ _ | .teqImm c _ _ _
  | .teqReg3 c _ _ _ | .teqReg4 c _ _ _ | .cmpImm c _ _ _ | .cmpReg3 c _ _ _
  | .cmpReg4 c _ _ _ | .cmnImm c _ _ _ | .cmnReg3 c _ _ _ | .cmnReg4 c _ _ _
  | .orrImm c _ _ _ _ | .orrReg3 c _ _ _ _ | .orrReg4 c _ _ _ _ | .movImm c _ _ _ _
  | .movReg3 c _ _ _ _ | .movReg4 c _ _ _ _ | .bicImm c _ _ _ _ | .bicReg3 c _ _ _ _
  | .bicReg4 c _ _ _ _ | .mvnImm c _ _ _ _ | .mvnReg3 c _ _ _ _ | .mvnReg4 c _ _ _ _
  | .mul c _ _ _ _ _ | .mla c _ _ _ _ _ | .umull c _ _ _ _ _ | .umlal c _ _ _ _ _
  | .smull c _ _ _ _ _ | .smlal c _ _ _ _ _ | .swp c _ _ _ | .swpb c _ _ _
  | .ldrhReg c _ _ _ _ | .ldrhImm c _ _ _ _ | .strhReg c _ _ _ _ | .strhImm c _ _ _ _
  | .ldrsbReg c _ _ _ _ | .ldrsbImm c _ _ _ _ | .ldrshReg c _ _ _ _ | .ldrshImm c _ _ _ _
  | .bx c _ | .mrs c _ _ | .msrReg c _ _ | .msrRegFlags c _ _
  | .msrImmFlags c _ _ | .ldrImm c _ _ _ _ | .ldrReg c _ _ _ _ | .strImm c _ _ _ _
  | .strReg c _ _ _ _ | .ldrbImm c _ _ _ _ | .ldrbReg c _ _ _ _ | .strbImm c _ _ _ _
  | .strbReg c _ _ _ _ | .ldm c _ _ _ | .stm c _ _ _ | .ldmS c _ _ _
  | .stmS c _ _ _ | .b c _ | .bl c _ => c

end Sys2Proof
end

