-- ==== Sys2Proof/Decode.lean ====
section
/-! DEFINITION. The decoder (30_encoding.md R98, in its order) and the encoder (R80). Both are total; a word the
source does not list is rejected under the name of the rule that reserves it. -/

namespace Sys2Proof

/-! ### The encoded values of the small fields -/

/-- The condition field of a condition (41_conditional_execution.md R180). -/
def Cond.bits : Cond → BitVec 4
  | .eq => 0b0000#4 | .ne => 0b0001#4 | .cs => 0b0010#4 | .cc => 0b0011#4
  | .mi => 0b0100#4 | .pl => 0b0101#4 | .vs => 0b0110#4 | .vc => 0b0111#4
  | .hi => 0b1000#4 | .ls => 0b1001#4 | .ge => 0b1010#4 | .lt => 0b1011#4
  | .gt => 0b1100#4 | .le => 0b1101#4 | .al => 0b1110#4 | .nv => 0b1111#4

/-- The condition a condition field names (R180). -/
def Cond.ofBits (b : BitVec 4) : Cond :=
  match b.toNat with
  | 0 => .eq | 1 => .ne | 2 => .cs | 3 => .cc | 4 => .mi | 5 => .pl | 6 => .vs | 7 => .vc
  | 8 => .hi | 9 => .ls | 10 => .ge | 11 => .lt | 12 => .gt | 13 => .le | 14 => .al | _ => .nv

/-- The opcode field of an operation (30_encoding.md R88). -/
def DpOp.bits : DpOp → BitVec 4
  | .and => 0b0000#4 | .eor => 0b0001#4 | .sub => 0b0010#4 | .rsb => 0b0011#4
  | .add => 0b0100#4 | .adc => 0b0101#4 | .sbc => 0b0110#4 | .rsc => 0b0111#4
  | .tst => 0b1000#4 | .teq => 0b1001#4 | .cmp => 0b1010#4 | .cmn => 0b1011#4
  | .orr => 0b1100#4 | .mov => 0b1101#4 | .bic => 0b1110#4 | .mvn => 0b1111#4

/-- The operation an opcode field names (R88). -/
def DpOp.ofBits (b : BitVec 4) : DpOp :=
  match b.toNat with
  | 0 => .and | 1 => .eor | 2 => .sub | 3 => .rsb | 4 => .add | 5 => .adc | 6 => .sbc | 7 => .rsc
  | 8 => .tst | 9 => .teq | 10 => .cmp | 11 => .cmn | 12 => .orr | 13 => .mov | 14 => .bic | _ => .mvn

/-- The field LA of a kind of shift (30_encoding.md R83). -/
def ShiftKind.bits : ShiftKind → BitVec 2
  | .lsl => 0b00#2 | .lsr => 0b01#2 | .asr => 0b10#2 | .ror => 0b11#2

/-- The kind of shift a field LA selects (R83). -/
def ShiftKind.ofBits (b : BitVec 2) : ShiftKind :=
  match b.toNat with
  | 0 => .lsl | 1 => .lsr | 2 => .asr | _ => .ror

/-! ### The decoder -/

/-- The reserved words, by the rule that reserves them (30_encoding.md R99). -/
inductive Reserved where
  /-- Bits 27 to 25 are 110 or 111 (R104). -/
  | noFormatClass
  /-- Class 011 with bit 4 = 1 (R102). -/
  | registerOffsetBit4
  /-- A short multiply with U = 1 (R100 a). -/
  | shortMultiplyU
  /-- SH = 00 and bit 24 = 1, not the SWP pattern (R100 b). -/
  | notSwap
  /-- SH = 10 or 11 with L = 0 (R100 c). -/
  | signedStore
  /-- A register-offset halfword form with bits 11 to 8 not 0000 (R100 d). -/
  | halfwordHighBits
  /-- A compare opcode with S = 0 that is not BX, MRS or MSR (R101). -/
  | compareSpace
deriving DecidableEq, Repr

/-- What a word decodes to. -/
inductive Decoded where
  | instr (i : Instr)
  | reserved (why : Reserved)
deriving DecidableEq, Repr

/-- The field Cond, bits 31 to 28 (30_encoding.md R82). -/
def condOf (w : Word) : Cond := Cond.ofBits (w.extractLsb' 28 4)

/-- The format class, bits 27 to 25 (R82). -/
def classOf (w : Word) : BitVec 3 := w.extractLsb' 25 3

/-- Bits 19 to 16: Rn, but Rd or RdHi in a multiply (R81, R89). -/
def regAt16 (w : Word) : Reg := w.extractLsb' 16 4

/-- Bits 15 to 12: Rd, but Rn or RdLo in a multiply (R81, R89). -/
def regAt12 (w : Word) : Reg := w.extractLsb' 12 4

/-- Bits 11 to 8: Rs (R81). -/
def regAt8 (w : Word) : Reg := w.extractLsb' 8 4

/-- Bits 3 to 0: Rm, but Rn in BX (R81, R95). -/
def regAt0 (w : Word) : Reg := w.extractLsb' 0 4

/-- The fields Rotate and Imm (R87). -/
def rotImmOf (w : Word) : RotImm := ⟨w.extractLsb' 8 4, w.extractLsb' 0 8⟩

/-- The fields Shift, LA and Rm (R85). -/
def shiftedRegOf (w : Word) : ShiftedReg :=
  ⟨w.extractLsb' 7 5, ShiftKind.ofBits (w.extractLsb' 5 2), regAt0 w⟩

/-- The fields Rs, LA and Rm (R86). -/
def regShiftedRegOf (w : Word) : RegShiftedReg :=
  ⟨regAt8 w, ShiftKind.ofBits (w.extractLsb' 5 2), regAt0 w⟩

/-- The bits P, U and W (R92). -/
def indexingOf (w : Word) : Indexing := ⟨w.getLsbD 24, w.getLsbD 23, w.getLsbD 21⟩

/-- The data-processing instruction with operation `op` and operand 2 in form imm; a compare has no S field of its own (R88). -/
def dpImm (op : DpOp) (c : Cond) (s : Bool) (rn rd : Reg) (o : RotImm) : Instr :=
  match op with
  | .and => .andImm c s rn rd o
  | .eor => .eorImm c s rn rd o
  | .sub => .subImm c s rn rd o
  | .rsb => .rsbImm c s rn rd o
  | .add => .addImm c s rn rd o
  | .adc => .adcImm c s rn rd o
  | .sbc => .sbcImm c s rn rd o
  | .rsc => .rscImm c s rn rd o
  | .tst => .tstImm c rn rd o
  | .teq => .teqImm c rn rd o
  | .cmp => .cmpImm c rn rd o
  | .cmn => .cmnImm c rn rd o
  | .orr => .orrImm c s rn rd o
  | .mov => .movImm c s rn rd o
  | .bic => .bicImm c s rn rd o
  | .mvn => .mvnImm c s rn rd o

/-- The data-processing instruction with operation `op` and operand 2 in form reg3; a compare has no S field of its own (R88). -/
def dpReg3 (op : DpOp) (c : Cond) (s : Bool) (rn rd : Reg) (o : ShiftedReg) : Instr :=
  match op with
  | .and => .andReg3 c s rn rd o
  | .eor => .eorReg3 c s rn rd o
  | .sub => .subReg3 c s rn rd o
  | .rsb => .rsbReg3 c s rn rd o
  | .add => .addReg3 c s rn rd o
  | .adc => .adcReg3 c s rn rd o
  | .sbc => .sbcReg3 c s rn rd o
  | .rsc => .rscReg3 c s rn rd o
  | .tst => .tstReg3 c rn rd o
  | .teq => .teqReg3 c rn rd o
  | .cmp => .cmpReg3 c rn rd o
  | .cmn => .cmnReg3 c rn rd o
  | .orr => .orrReg3 c s rn rd o
  | .mov => .movReg3 c s rn rd o
  | .bic => .bicReg3 c s rn rd o
  | .mvn => .mvnReg3 c s rn rd o

/-- The data-processing instruction with operation `op` and operand 2 in form reg4; a compare has no S field of its own (R88). -/
def dpReg4 (op : DpOp) (c : Cond) (s : Bool) (rn rd : Reg) (o : RegShiftedReg) : Instr :=
  match op with
  | .and => .andReg4 c s rn rd o
  | .eor => .eorReg4 c s rn rd o
  | .sub => .subReg4 c s rn rd o
  | .rsb => .rsbReg4 c s rn rd o
  | .add => .addReg4 c s rn rd o
  | .adc => .adcReg4 c s rn rd o
  | .sbc => .sbcReg4 c s rn rd o
  | .rsc => .rscReg4 c s rn rd o
  | .tst => .tstReg4 c rn rd o
  | .teq => .teqReg4 c rn rd o
  | .cmp => .cmpReg4 c rn rd o
  | .cmn => .cmnReg4 c rn rd o
  | .orr => .orrReg4 c s rn rd o
  | .mov => .movReg4 c s rn rd o
  | .bic => .bicReg4 c s rn rd o
  | .mvn => .mvnReg4 c s rn rd o

/-- The multiply family: SH = 00 and bit 24 = 0 (R89; R98 step 2). -/
def decodeMultiply (w : Word) : Decoded :=
  if !w.getLsbD 23 then
    if w.getLsbD 22 then .reserved .shortMultiplyU
    else if w.getLsbD 21 then
      .instr (.mla (condOf w) (w.getLsbD 20) (regAt16 w) (regAt12 w) (regAt8 w) (regAt0 w))
    else .instr (.mul (condOf w) (w.getLsbD 20) (regAt16 w) (regAt12 w) (regAt8 w) (regAt0 w))
  else if w.getLsbD 22 then
    if w.getLsbD 21 then
      .instr (.smlal (condOf w) (w.getLsbD 20) (regAt16 w) (regAt12 w) (regAt8 w) (regAt0 w))
    else .instr (.smull (condOf w) (w.getLsbD 20) (regAt16 w) (regAt12 w) (regAt8 w) (regAt0 w))
  else if w.getLsbD 21 then
    .instr (.umlal (condOf w) (w.getLsbD 20) (regAt16 w) (regAt12 w) (regAt8 w) (regAt0 w))
  else .instr (.umull (condOf w) (w.getLsbD 20) (regAt16 w) (regAt12 w) (regAt8 w) (regAt0 w))

/-- SWP and SWPB: SH = 00 and bit 24 = 1; bits 23, 21, 20 and 11 to 8 must be 0 (R90; R98 step 2). -/
def decodeSwap (w : Word) : Decoded :=
  if w.getLsbD 23 = false ∧ w.extractLsb' 20 2 = 0b00#2 ∧ w.extractLsb' 8 4 = 0b0000#4 then
    if w.getLsbD 22 then .instr (.swpb (condOf w) (regAt16 w) (regAt12 w) (regAt0 w))
    else .instr (.swp (condOf w) (regAt16 w) (regAt12 w) (regAt0 w))
  else .reserved .notSwap

/-- Halfword and signed transfers with an immediate offset, bit 22 = 1 (R91). -/
def decodeHalfwordImm (w : Word) : Decoded :=
  let off := w.extractLsb' 8 4 ++ w.extractLsb' 0 4
  if w.getLsbD 20 then
    if w.extractLsb' 5 2 = 0b01#2 then .instr (.ldrhImm (condOf w) (indexingOf w) (regAt16 w) (regAt12 w) off)
    else if w.extractLsb' 5 2 = 0b10#2 then
      .instr (.ldrsbImm (condOf w) (indexingOf w) (regAt16 w) (regAt12 w) off)
    else .instr (.ldrshImm (condOf w) (indexingOf w) (regAt16 w) (regAt12 w) off)
  else if w.extractLsb' 5 2 = 0b01#2 then
    .instr (.strhImm (condOf w) (indexingOf w) (regAt16 w) (regAt12 w) off)
  else .reserved .signedStore

/-- Halfword and signed transfers with a register offset, bit 22 = 0 (R91); bits 11 to 8 must be 0000. -/
def decodeHalfwordReg (w : Word) : Decoded :=
  if w.extractLsb' 8 4 = 0b0000#4 then
    if w.getLsbD 20 then
      if w.extractLsb' 5 2 = 0b01#2 then
        .instr (.ldrhReg (condOf w) (indexingOf w) (regAt16 w) (regAt12 w) (regAt0 w))
      else if w.extractLsb' 5 2 = 0b10#2 then
        .instr (.ldrsbReg (condOf w) (indexingOf w) (regAt16 w) (regAt12 w) (regAt0 w))
      else .instr (.ldrshReg (condOf w) (indexingOf w) (regAt16 w) (regAt12 w) (regAt0 w))
    else if w.extractLsb' 5 2 = 0b01#2 then
      .instr (.strhReg (condOf w) (indexingOf w) (regAt16 w) (regAt12 w) (regAt0 w))
    else .reserved .signedStore
  else .reserved .halfwordHighBits

/-- The space with bit 7 = 1 and bit 4 = 1 of class 000 (R98 step 2). -/
def decodeExtension (w : Word) : Decoded :=
  if w.extractLsb' 5 2 = 0b00#2 then
    if w.getLsbD 24 then decodeSwap w else decodeMultiply w
  else if w.getLsbD 22 then decodeHalfwordImm w else decodeHalfwordReg w

/-- The compare opcodes with S = 0: BX, MRS, the three MSR forms, otherwise reserved (R95, R96, R97, R101; R98
step 3). -/
def decodeStatus (w : Word) : Decoded :=
  if w.extractLsb' 4 24 = 0b000100101111111111110001#24 then .instr (.bx (condOf w) (regAt0 w))
  else if w.extractLsb' 23 5 = 0b00010#5 ∧ w.extractLsb' 16 6 = 0b001111#6 ∧ w.extractLsb' 0 12 = 0#12 then
    .instr (.mrs (condOf w) (w.getLsbD 22) (regAt12 w))
  else if w.extractLsb' 23 5 = 0b00010#5 ∧ w.extractLsb' 4 18 = 0b101001111100000000#18 then
    .instr (.msrReg (condOf w) (w.getLsbD 22) (regAt0 w))
  else if w.extractLsb' 23 5 = 0b00010#5 ∧ w.extractLsb' 4 18 = 0b101000111100000000#18 then
    .instr (.msrRegFlags (condOf w) (w.getLsbD 22) (regAt0 w))
  else if w.extractLsb' 23 5 = 0b00110#5 ∧ w.extractLsb' 12 10 = 0b1010001111#10 then
    .instr (.msrImmFlags (condOf w) (w.getLsbD 22) (rotImmOf w))
  else .reserved .compareSpace

/-- Single data transfer with an immediate offset, class 010 (R92). -/
def decodeTransferImm (w : Word) : Instr :=
  if w.getLsbD 22 then
    if w.getLsbD 20 then .ldrbImm (condOf w) (indexingOf w) (regAt16 w) (regAt12 w) (w.extractLsb' 0 12)
    else .strbImm (condOf w) (indexingOf w) (regAt16 w) (regAt12 w) (w.extractLsb' 0 12)
  else if w.getLsbD 20 then .ldrImm (condOf w) (indexingOf w) (regAt16 w) (regAt12 w) (w.extractLsb' 0 12)
  else .strImm (condOf w) (indexingOf w) (regAt16 w) (regAt12 w) (w.extractLsb' 0 12)

/-- Single data transfer with a register offset, class 011 with bit 4 = 0 (R92). -/
def decodeTransferReg (w : Word) : Instr :=
  if w.getLsbD 22 then
    if w.getLsbD 20 then .ldrbReg (condOf w) (indexingOf w) (regAt16 w) (regAt12 w) (shiftedRegOf w)
    else .strbReg (condOf w) (indexingOf w) (regAt16 w) (regAt12 w) (shiftedRegOf w)
  else if w.getLsbD 20 then .ldrReg (condOf w) (indexingOf w) (regAt16 w) (regAt12 w) (shiftedRegOf w)
  else .strReg (condOf w) (indexingOf w) (regAt16 w) (regAt12 w) (shiftedRegOf w)

/-- Block transfer, class 100; bit 22 is S (R93, R103). -/
def decodeBlock (w : Word) : Instr :=
  if w.getLsbD 22 then
    if w.getLsbD 20 then .ldmS (condOf w) (indexingOf w) (regAt16 w) (w.extractLsb' 0 16)
    else .stmS (condOf w) (indexingOf w) (regAt16 w) (w.extractLsb' 0 16)
  else if w.getLsbD 20 then .ldm (condOf w) (indexingOf w) (regAt16 w) (w.extractLsb' 0 16)
  else .stm (condOf w) (indexingOf w) (regAt16 w) (w.extractLsb' 0 16)

/-- B and BL, class 101 (R94). -/
def decodeBranch (w : Word) : Instr :=
  if w.getLsbD 24 then .bl (condOf w) (w.extractLsb' 0 24) else .b (condOf w) (w.extractLsb' 0 24)

/-- The decoder, in the order of R98; it looks at bits 27 to 0 to choose and copies the condition. -/
def decode (w : Word) : Decoded :=
  if classOf w = 0b110#3 ∨ classOf w = 0b111#3 then .reserved .noFormatClass
  else if classOf w = 0b000#3 ∧ w.getLsbD 7 = true ∧ w.getLsbD 4 = true then decodeExtension w
  else if (classOf w = 0b000#3 ∨ classOf w = 0b001#3) ∧ w.extractLsb' 23 2 = 0b10#2 ∧ w.getLsbD 20 = false then
    decodeStatus w
  else if classOf w = 0b001#3 then
    .instr (dpImm (DpOp.ofBits (w.extractLsb' 21 4)) (condOf w) (w.getLsbD 20) (regAt16 w) (regAt12 w) (rotImmOf w))
  else if classOf w = 0b000#3 then
    if w.getLsbD 4 then
      .instr (dpReg4 (DpOp.ofBits (w.extractLsb' 21 4)) (condOf w) (w.getLsbD 20) (regAt16 w) (regAt12 w)
        (regShiftedRegOf w))
    else
      .instr (dpReg3 (DpOp.ofBits (w.extractLsb' 21 4)) (condOf w) (w.getLsbD 20) (regAt16 w) (regAt12 w)
        (shiftedRegOf w))
  else if classOf w = 0b010#3 then .instr (decodeTransferImm w)
  else if classOf w = 0b011#3 then
    if w.getLsbD 4 then .reserved .registerOffsetBit4 else .instr (decodeTransferReg w)
  else if classOf w = 0b100#3 then .instr (decodeBlock w)
  else .instr (decodeBranch w)

/-! ### The encoder -/

/-- Data Processing (imm): `Cond 001 OpCode S Rn Rd Rotate Imm` (R80). -/
def dpImmWord (c : Cond) (op : DpOp) (s : Bool) (rn rd : Reg) (o : RotImm) : Word :=
  c.bits ++ 0b001#3 ++ op.bits ++ BitVec.ofBool s ++ rn ++ rd ++ o.rot ++ o.imm

/-- Data Processing (reg3): `Cond 000 OpCode S Rn Rd Shift LA 0 Rm` (R80). -/
def dpReg3Word (c : Cond) (op : DpOp) (s : Bool) (rn rd : Reg) (o : ShiftedReg) : Word :=
  c.bits ++ 0b000#3 ++ op.bits ++ BitVec.ofBool s ++ rn ++ rd ++ o.amount ++ o.kind.bits ++ 0b0#1 ++ o.rm

/-- Data Processing (reg4): `Cond 000 OpCode S Rn Rd Rs 0 LA 1 Rm` (R80). -/
def dpReg4Word (c : Cond) (op : DpOp) (s : Bool) (rn rd : Reg) (o : RegShiftedReg) : Word :=
  c.bits ++ 0b000#3 ++ op.bits ++ BitVec.ofBool s ++ rn ++ rd ++ o.rs ++ 0b0#1 ++ o.kind.bits ++ 0b1#1 ++ o.rm

/-- Multiply: `Cond 0000 L U A S r16 r12 Rs 1001 Rm`, `lua` being the bits L, U and A (R80, R89). -/
def multiplyWord (c : Cond) (lua : BitVec 3) (s : Bool) (r16 r12 rs rm : Reg) : Word :=
  c.bits ++ 0b0000#4 ++ lua ++ BitVec.ofBool s ++ r16 ++ r12 ++ rs ++ 0b1001#4 ++ rm

/-- SWP: `Cond 00010 B 00 Rn Rd 0000 1001 Rm` (R80, R90). -/
def swapWord (c : Cond) (b : Bool) (rn rd rm : Reg) : Word :=
  c.bits ++ 0b00010#5 ++ BitVec.ofBool b ++ 0b00#2 ++ rn ++ rd ++ 0b0000#4 ++ 0b1001#4 ++ rm

/-- Halfword and signed transfers: `Cond 000 P U I W L Rn Rd hi 1 SH 1 lo` (R80, R91). -/
def halfwordWord (c : Cond) (ix : Indexing) (imm l : Bool) (sh : BitVec 2) (rn rd : Reg) (hi lo : BitVec 4) : Word :=
  c.bits ++ 0b000#3 ++ BitVec.ofBool ix.p ++ BitVec.ofBool ix.u ++ BitVec.ofBool imm ++ BitVec.ofBool ix.w ++
    BitVec.ofBool l ++ rn ++ rd ++ hi ++ 0b1#1 ++ sh ++ 0b1#1 ++ lo

/-- Data Transfer (imm offset): `Cond 010 P U B W L Rn Rd offset` (R80, R92). -/
def transferImmWord (c : Cond) (ix : Indexing) (b l : Bool) (rn rd : Reg) (off : BitVec 12) : Word :=
  c.bits ++ 0b010#3 ++ BitVec.ofBool ix.p ++ BitVec.ofBool ix.u ++ BitVec.ofBool b ++ BitVec.ofBool ix.w ++
    BitVec.ofBool l ++ rn ++ rd ++ off

/-- Data Transfer (reg offset): `Cond 011 P U B W L Rn Rd Shift LA 0 Rm` (R80, R92). -/
def transferRegWord (c : Cond) (ix : Indexing) (b l : Bool) (rn rd : Reg) (o : ShiftedReg) : Word :=
  c.bits ++ 0b011#3 ++ BitVec.ofBool ix.p ++ BitVec.ofBool ix.u ++ BitVec.ofBool b ++ BitVec.ofBool ix.w ++
    BitVec.ofBool l ++ rn ++ rd ++ o.amount ++ o.kind.bits ++ 0b0#1 ++ o.rm

/-- Block Transfer: `Cond 100 P U S W L Rn RegisterList` (R93). -/
def blockWord (c : Cond) (ix : Indexing) (s l : Bool) (rn : Reg) (list : BitVec 16) : Word :=
  c.bits ++ 0b100#3 ++ BitVec.ofBool ix.p ++ BitVec.ofBool ix.u ++ BitVec.ofBool s ++ BitVec.ofBool ix.w ++
    BitVec.ofBool l ++ rn ++ list

/-- MSR from a register: `Cond 00010 Pd 10 mask 1111 0000 0000 Rm`, `mask` being 1001 or 1000 (R97). -/
def msrRegWord (c : Cond) (pd : Bool) (mask : BitVec 4) (rm : Reg) : Word :=
  c.bits ++ 0b00010#5 ++ BitVec.ofBool pd ++ 0b10#2 ++ mask ++ 0b1111#4 ++ 0b00000000#8 ++ rm

/-- The word of an instruction, written from the format table (R80, R84 to R97). -/
def encode : Instr → Word
  | .andImm c s rn rd o => dpImmWord c .and s rn rd o
  | .eorImm c s rn rd o => dpImmWord c .eor s rn rd o
  | .subImm c s rn rd o => dpImmWord c .sub s rn rd o
  | .rsbImm c s rn rd o => dpImmWord c .rsb s rn rd o
  | .addImm c s rn rd o => dpImmWord c .add s rn rd o
  | .adcImm c s rn rd o => dpImmWord c .adc s rn rd o
  | .sbcImm c s rn rd o => dpImmWord c .sbc s rn rd o
  | .rscImm c s rn rd o => dpImmWord c .rsc s rn rd o
  | .tstImm c rn rd o => dpImmWord c .tst true rn rd o
  | .teqImm c rn rd o => dpImmWord c .teq true rn rd o
  | .cmpImm c rn rd o => dpImmWord c .cmp true rn rd o
  | .cmnImm c rn rd o => dpImmWord c .cmn true rn rd o
  | .orrImm c s rn rd o => dpImmWord c .orr s rn rd o
  | .movImm c s rn rd o => dpImmWord c .mov s rn rd o
  | .bicImm c s rn rd o => dpImmWord c .bic s rn rd o
  | .mvnImm c s rn rd o => dpImmWord c .mvn s rn rd o
  | .andReg3 c s rn rd o => dpReg3Word c .and s rn rd o
  | .eorReg3 c s rn rd o => dpReg3Word c .eor s rn rd o
  | .subReg3 c s rn rd o => dpReg3Word c .sub s rn rd o
  | .rsbReg3 c s rn rd o => dpReg3Word c .rsb s rn rd o
  | .addReg3 c s rn rd o => dpReg3Word c .add s rn rd o
  | .adcReg3 c s rn rd o => dpReg3Word c .adc s rn rd o
  | .sbcReg3 c s rn rd o => dpReg3Word c .sbc s rn rd o
  | .rscReg3 c s rn rd o => dpReg3Word c .rsc s rn rd o
  | .tstReg3 c rn rd o => dpReg3Word c .tst true rn rd o
  | .teqReg3 c rn rd o => dpReg3Word c .teq true rn rd o
  | .cmpReg3 c rn rd o => dpReg3Word c .cmp true rn rd o
  | .cmnReg3 c rn rd o => dpReg3Word c .cmn true rn rd o
  | .orrReg3 c s rn rd o => dpReg3Word c .orr s rn rd o
  | .movReg3 c s rn rd o => dpReg3Word c .mov s rn rd o
  | .bicReg3 c s rn rd o => dpReg3Word c .bic s rn rd o
  | .mvnReg3 c s rn rd o => dpReg3Word c .mvn s rn rd o
  | .andReg4 c s rn rd o => dpReg4Word c .and s rn rd o
  | .eorReg4 c s rn rd o => dpReg4Word c .eor s rn rd o
  | .subReg4 c s rn rd o => dpReg4Word c .sub s rn rd o
  | .rsbReg4 c s rn rd o => dpReg4Word c .rsb s rn rd o
  | .addReg4 c s rn rd o => dpReg4Word c .add s rn rd o
  | .adcReg4 c s rn rd o => dpReg4Word c .adc s rn rd o
  | .sbcReg4 c s rn rd o => dpReg4Word c .sbc s rn rd o
  | .rscReg4 c s rn rd o => dpReg4Word c .rsc s rn rd o
  | .tstReg4 c rn rd o => dpReg4Word c .tst true rn rd o
  | .teqReg4 c rn rd o => dpReg4Word c .teq true rn rd o
  | .cmpReg4 c rn rd o => dpReg4Word c .cmp true rn rd o
  | .cmnReg4 c rn rd o => dpReg4Word c .cmn true rn rd o
  | .orrReg4 c s rn rd o => dpReg4Word c .orr s rn rd o
  | .movReg4 c s rn rd o => dpReg4Word c .mov s rn rd o
  | .bicReg4 c s rn rd o => dpReg4Word c .bic s rn rd o
  | .mvnReg4 c s rn rd o => dpReg4Word c .mvn s rn rd o
  | .mul c s rd rn rs rm => multiplyWord c 0b000#3 s rd rn rs rm
  | .mla c s rd rn rs rm => multiplyWord c 0b001#3 s rd rn rs rm
  | .umull c s rdHi rdLo rs rm => multiplyWord c 0b100#3 s rdHi rdLo rs rm
  | .umlal c s rdHi rdLo rs rm => multiplyWord c 0b101#3 s rdHi rdLo rs rm
  | .smull c s rdHi rdLo rs rm => multiplyWord c 0b110#3 s rdHi rdLo rs rm
  | .smlal c s rdHi rdLo rs rm => multiplyWord c 0b111#3 s rdHi rdLo rs rm
  | .swp c rn rd rm => swapWord c false rn rd rm
  | .swpb c rn rd rm => swapWord c true rn rd rm
  | .ldrhReg c ix rn rd rm => halfwordWord c ix false true 0b01#2 rn rd 0b0000#4 rm
  | .ldrhImm c ix rn rd o => halfwordWord c ix true true 0b01#2 rn rd (o.extractLsb' 4 4) (o.extractLsb' 0 4)
  | .strhReg c ix rn rd rm => halfwordWord c ix false false 0b01#2 rn rd 0b0000#4 rm
  | .strhImm c ix rn rd o => halfwordWord c ix true false 0b01#2 rn rd (o.extractLsb' 4 4) (o.extractLsb' 0 4)
  | .ldrsbReg c ix rn rd rm => halfwordWord c ix false true 0b10#2 rn rd 0b0000#4 rm
  | .ldrsbImm c ix rn rd o => halfwordWord c ix true true 0b10#2 rn rd (o.extractLsb' 4 4) (o.extractLsb' 0 4)
  | .ldrshReg c ix rn rd rm => halfwordWord c ix false true 0b11#2 rn rd 0b0000#4 rm
  | .ldrshImm c ix rn rd o => halfwordWord c ix true true 0b11#2 rn rd (o.extractLsb' 4 4) (o.extractLsb' 0 4)
  | .bx c rn => c.bits ++ 0b000100101111111111110001#24 ++ rn
  | .mrs c ps rd => c.bits ++ 0b00010#5 ++ BitVec.ofBool ps ++ 0b001111#6 ++ rd ++ 0#12
  | .msrReg c pd rm => msrRegWord c pd 0b1001#4 rm
  | .msrRegFlags c pd rm => msrRegWord c pd 0b1000#4 rm
  | .msrImmFlags c pd o => c.bits ++ 0b00110#5 ++ BitVec.ofBool pd ++ 0b1010001111#10 ++ o.rot ++ o.imm
  | .ldrImm c ix rn rd o => transferImmWord c ix false true rn rd o
  | .ldrReg c ix rn rd o => transferRegWord c ix false true rn rd o
  | .strImm c ix rn rd o => transferImmWord c ix false false rn rd o
  | .strReg c ix rn rd o => transferRegWord c ix false false rn rd o
  | .ldrbImm c ix rn rd o => transferImmWord c ix true true rn rd o
  | .ldrbReg c ix rn rd o => transferRegWord c ix true true rn rd o
  | .strbImm c ix rn rd o => transferImmWord c ix true false rn rd o
  | .strbReg c ix rn rd o => transferRegWord c ix true false rn rd o
  | .ldm c ix rn list => blockWord c ix false true rn list
  | .stm c ix rn list => blockWord c ix false false rn list
  | .ldmS c ix rn list => blockWord c ix true true rn list
  | .stmS c ix rn list => blockWord c ix true false rn list
  | .b c off => c.bits ++ 0b101#3 ++ 0b0#1 ++ off
  | .bl c off => c.bits ++ 0b101#3 ++ 0b1#1 ++ off

/-! ### Bytes -/

/-- The word whose bytes, from the lowest address up, are `b0` to `b3`: little-endian (20_memory.md R51). -/
def wordOfBytes (b0 b1 b2 b3 : Byte) : Word := b3 ++ b2 ++ b1 ++ b0

/-- Byte `k` of a word, the byte at offset `k` from its address (R51). -/
def byteOfWord (w : Word) (k : Nat) : Byte := w.extractLsb' (8 * k) 8

/-- The instruction the decoder reads from the bytes of a word stored little-endian, as the host asks for it. -/
def decodeTableWord (nbits w : Nat) : Option Instr :=
  let v := BitVec.ofNat 32 (w % 2 ^ nbits)
  match decode (wordOfBytes (byteOfWord v 0) (byteOfWord v 1) (byteOfWord v 2) (byteOfWord v 3)) with
  | .instr i => some i
  | .reserved _ => none

end Sys2Proof
end

