-- ==== Sys2Proof/Config.lean ====
section
/-! DEFINITION. The implementation parameters of 00_scope.md R9, and the one free value of the spec. -/

namespace Sys2Proof

/-- The parameters the spec leaves open and hands to the model (00_scope.md R9). A `State` carries one
`Config`, which no step changes (log 1), so a statement about every state is about every configuration. -/
structure Config where
  /-- `MEM_BASE`, the lowest address of memory. -/
  memBase : Word
  /-- `MEM_SIZE`, the size of memory in bytes. -/
  memSize : Nat
  /-- `RESET_PC`, the value of pc when a run starts. -/
  resetPc : Word
  /-- `END_PC`, the address at which a run ends. -/
  endPc : Word
  /-- `ADMIT_HALFWORD`: LDRH, STRH, LDRSB and LDRSH are admitted. -/
  admitHalfword : Bool
  /-- `ADMIT_PSR`: MRS and the three MSR forms are admitted. -/
  admitPsr : Bool
  /-- `ADMIT_LONGMUL`: UMULL, UMLAL, SMULL and SMLAL are admitted. -/
  admitLongMul : Bool
  /-- `ADMIT_RRX`: the operand form ROR with amount field 0 is admitted. -/
  admitRrx : Bool
  /-- `ADMIT_SWPB`: SWPB is admitted. -/
  admitSwpb : Bool
  /-- `PSR_LOW`, bits 27 to 0 of what MRS reads (46_status_register.md R301). -/
  psrLow : BitVec 28
deriving DecidableEq, Repr

/-- The constraints R9 puts on its parameters: `MEM_BASE`, `MEM_SIZE` and `RESET_PC` are multiples of 4,
memory ends at 2^32 or below, and (70_reset_and_hazards.md R351) `RESET_PC` lies inside memory. -/
abbrev Config.Legal (c : Config) : Prop :=
  c.memBase.toNat % 4 = 0 ∧ c.memSize % 4 = 0 ∧ c.memBase.toNat + c.memSize ≤ 2 ^ 32 ∧
    c.resetPc.toNat % 4 = 0 ∧ c.memBase.toNat ≤ c.resetPc.toNat ∧
    c.resetPc.toNat + 4 ≤ c.memBase.toNat + c.memSize

/-- The column "suggested" of R9, with the test vectors' `PSR_LOW` = 0. The suggested `END_PC` is the address
after the last program word; no program is loaded here, and 0xFFFFFFFF is named instead (log 4, DESIGN CHOICE). -/
def Config.suggested : Config where
  memBase := 0
  memSize := 0x10000
  resetPc := 0
  endPc := 0xFFFFFFFF#32
  admitHalfword := false
  admitPsr := false
  admitLongMul := false
  admitRrx := false
  admitSwpb := false
  psrLow := 0

/-- The configuration of `State.reset`: the suggested one with every tier-2 feature admitted, so that every
instruction the spec gives an effect runs (log 2, DESIGN CHOICE). -/
def Config.atReset : Config :=
  { Config.suggested with
    admitHalfword := true, admitPsr := true, admitLongMul := true, admitRrx := true, admitSwpb := true }

/-- FREE VALUE. The `n`-th draw of `MUL_C`, the value of C after a flag-setting multiply (R9, 43_multiply.md
R222, R226): "under no law". It has no body; nothing can evaluate it or prove a value of it (log 10). -/
opaque Config.mulC : Nat → Bool

end Sys2Proof
end

