-- ==== Sys2Proof/Machine/State.lean ====
section
/-! DEFINITION. The machine's state (10_state.md), the reasons a step can stop (60_exceptions.md R320) and the
state after reset. "The whole state of the machine is: sixteen 32-bit registers of which the sixteenth is the program
counter, four one-bit flags, and one byte-addressed memory." -/

namespace Sys2Proof.Machine

/-- The four status flags (10_state.md R28). The PSR has no other content (R31). -/
structure Flags where
  n : Bool
  z : Bool
  c : Bool
  v : Bool
deriving DecidableEq, Repr

/-- The bytes of memory that differ from what an unwritten byte reads as (20_memory.md R50), in the canonical form
`Memory.wf` of Machine/Ops.lean: addresses strictly rising, no entry equal to the unwritten byte. -/
abbrev Memory := List Host.Cell

/-- The features an `Unsupported` fault names (60_exceptions.md R322). -/
inductive Feature where
  | halfword | swpb | longMultiply | rrx | psr | spsr | blockS
deriving DecidableEq, Repr

/-- The operand combinations an `Unpredictable` fault names (60_exceptions.md R323). -/
inductive Reason where
  | r15InReg4 | sWithPcDest | mulOperands | transferOperands | swapOperands | blockOperands | psrOperands
deriving DecidableEq, Repr

/-- Why the machine stops. All but the last are the six model faults of R320: the run is over and the state stays as
it was before the instruction. -/
inductive Fault where
  /-- Raised by the step for a word that matches no instruction (R321). Safe: the spec stops there too. -/
  | reservedEncoding (w : Word)
  /-- Raised by a tier-2 instruction whose ADMIT parameter is false and by a bit that has nothing to act on (R322).
  Safe: the spec stops there too. -/
  | unsupported (f : Feature)
  /-- Raised by an operand combination without a single meaning (R323). Safe: the spec stops there too. -/
  | unpredictable (r : Reason)
  /-- Raised by the step when pc is not a multiple of 4 (R324). Safe: the spec stops there too. -/
  | fetchMisaligned (pc : Word)
  /-- Raised by a word or halfword access at an address that is not a multiple of its width (R325). Safe: the spec
  stops there too. -/
  | dataMisaligned (addr : Word) (n : Nat)
  /-- Raised by a fetch or an access with a byte outside memory (R326). Safe: the spec stops there too. -/
  | accessOutOfRange (addr : Word) (n : Nat)
  /-- Raised by the step when pc = `END_PC`: no model fault, the run has ended normally
  (70_reset_and_hazards.md R353; log 8). Safe: the spec takes no step there either. -/
  | runEnded
deriving DecidableEq, Repr

/-- The instructions the model has no meaning for. -/
inductive Refusal where
  /-- Raised by an arm of `exec` for an instruction that has no meaning yet. Safe: nothing can be proved of it. No
  arm raises it now. -/
  | notModelled (mnemonic : String)
deriving DecidableEq, Repr

/-- The state of the machine. -/
structure State where
  /-- R0 to R14 (10_state.md R20). -/
  regs : Vector Word 15
  /-- R15, the address of the instruction being executed (R24). -/
  pc : Word
  /-- N, Z, C and V (R28). -/
  flags : Flags
  /-- The memory (R34; 20_memory.md R50). -/
  mem : Memory
  /-- The parameters of 00_scope.md R9, which no step changes (log 1). -/
  cfg : Config
  /-- The model's own field: how many draws of `MUL_C` were taken (43_multiply.md R222; log 10). -/
  mulDraws : Nat
deriving DecidableEq, Repr

/-- A launch state of configuration `c` in which nothing is loaded (70_reset_and_hazards.md R351): pc is `RESET_PC`;
the registers and the flags, which the spec leaves unspecified, are 0 (log 5, 6, DESIGN CHOICE). -/
def State.launch (c : Config) : State where
  regs := Vector.replicate 15 0#32
  pc := c.resetPc
  flags := ⟨false, false, false, false⟩
  mem := []
  cfg := c
  mulDraws := 0

/-- The machine right after reset (R351; log 2, 3, 4, 9). -/
def State.reset : State := State.launch Config.atReset

end Sys2Proof.Machine
end

