-- ==== Sys2Proof/Machine/Flags.lean ====
section
/-! DEFINITION. The condition test and every flag computation of the spec. -/

namespace Sys2Proof.Machine

/-- `CondPassed`: whether a condition holds under the flags (41_conditional_execution.md R180). -/
def condPassed (c : Cond) (f : Flags) : Bool :=
  match c with
  | .eq => f.z
  | .ne => !f.z
  | .cs => f.c
  | .cc => !f.c
  | .mi => f.n
  | .pl => !f.n
  | .vs => f.v
  | .vc => !f.v
  | .hi => f.c && !f.z
  | .ls => !f.c || f.z
  | .ge => f.n == f.v
  | .lt => f.n != f.v
  | .gt => !f.z && f.n == f.v
  | .le => f.z || f.n != f.v
  | .al => true
  | .nv => false

/-- The three values of `AddWithCarry`. -/
structure Sum where
  result : Word
  carry : Bool
  overflow : Bool
deriving DecidableEq, Repr

/-- `AddWithCarry(a, b, cin)` (40_data_processing.md R124). -/
def addWithCarry (a b : Word) (cin : Bool) : Sum :=
  let sum := a.toNat + b.toNat + cin.toNat
  let result := BitVec.ofNat 32 sum
  ⟨result, decide (2 ^ 32 ≤ sum), a.msb == b.msb && result.msb != a.msb⟩

/-- What a data-processing instruction computes: the value and the flags it writes when S = 1. -/
structure AluResult where
  value : Word
  flags : Flags
deriving DecidableEq, Repr

/-- The flag rule of the logical group (40_data_processing.md R125): `sco` is the shifter's carry-out. -/
def logicalResult (old : Flags) (value : Word) (sco : Bool) : AluResult :=
  ⟨value, ⟨value.msb, value == 0#32, sco, old.v⟩⟩

/-- The flag rule of the arithmetic group (R126). -/
def arithmeticResult (r : Sum) : AluResult :=
  ⟨r.result, ⟨r.result.msb, r.result == 0#32, r.carry, r.overflow⟩⟩

/-- The flags after a flag-setting multiply whose result has sign `n` and is zero iff `z`, `draw` being the draw of
`MUL_C` (43_multiply.md R222, R226). -/
def multiplyFlags (old : Flags) (n z draw : Bool) : Flags := ⟨n, z, draw, old.v⟩

/-- The flags MSR writes from the value `v` (46_status_register.md R303). -/
def flagsOfPsr (v : Word) : Flags := ⟨v.getLsbD 31, v.getLsbD 30, v.getLsbD 29, v.getLsbD 28⟩

/-- `PSRImage` (46_status_register.md R301). -/
def psrImage (f : Flags) (low : BitVec 28) : Word :=
  BitVec.ofBool f.n ++ BitVec.ofBool f.z ++ BitVec.ofBool f.c ++ BitVec.ofBool f.v ++ low

end Sys2Proof.Machine
end

