-- ==== Sys2Proof/Machine/Ops.lean ====
section
/-! DEFINITION. The shared operations over registers and memory, the order in which an instruction's checks are made,
and the fetch. The spec has no exception entry and no exception return (60_exceptions.md R327, R331, R332), so there is
no operation that takes one: what stops an instruction is a model fault (R320), which ends the run. -/

namespace Sys2Proof.Machine

/-- What a step answers. -/
abbrev Result := Host.Outcome State Fault Refusal

/-! ### Registers -/

/-- `x[i]`, a register read: R15 reads as pc + 8 (00_scope.md R12; 10_state.md R25). -/
def State.reg (s : State) (r : Reg) : Word :=
  if h : r.toNat < 15 then s.regs[r.toNat] else s.pc + 8#32

/-- `x[i] <- v`, a register write: a write of R15 writes all 32 bits of the pc (R12; R26). -/
def State.setReg (s : State) (r : Reg) (v : Word) : State :=
  if h : r.toNat < 15 then { s with regs := s.regs.set r.toNat v } else { s with pc := v }

/-- `pc <- pc + 4`, the end of an instruction that performs no control transfer (10_state.md R27). Meanings advance
first and write registers after, so that a write of R15 replaces the advanced pc. -/
def State.advance (s : State) : State := { s with pc := s.pc + 4#32 }

/-- The state with other flags. -/
def State.withFlags (s : State) (f : Flags) : State := { s with flags := f }

/-- The state with another memory. -/
def State.withMem (s : State) (m : Memory) : State := { s with mem := m }

/-! ### Memory -/

/-- What a byte that nothing has written reads as (log 7, DESIGN CHOICE: R36 and R351 leave it unspecified). -/
def unwrittenByte : Byte := 0#8

/-- The canonical form of memory: addresses strictly rising, no entry equal to the unwritten byte. -/
abbrev Memory.wf (m : Memory) : Prop :=
  m.Pairwise (fun a b => a.1 < b.1) ∧ ∀ c ∈ m, c.2 ≠ unwrittenByte

/-- The byte at an address. -/
def Memory.read : Memory → Nat → Byte
  | [], _ => unwrittenByte
  | (k, v) :: rest, a => if k = a then v else Memory.read rest a

/-- An entry put before the first entry of a higher address. -/
def Memory.place : Memory → Nat → Byte → Memory
  | [], a, b => [(a, b)]
  | (k, v) :: rest, a, b => if a < k then (a, b) :: (k, v) :: rest else (k, v) :: Memory.place rest a b

/-- The memory without entries at an address. -/
def Memory.clear (m : Memory) (a : Nat) : Memory := m.filter (fun c => c.1 != a)

/-- The memory after one byte is written; it keeps the canonical form. -/
def Memory.write (m : Memory) (a : Nat) (b : Byte) : Memory :=
  if b = unwrittenByte then m.clear a else (m.clear a).place a b

/-- The widths of an access (20_memory.md R54). -/
inductive Width where
  | byte | half | word
deriving DecidableEq, Repr

/-- The number of bytes of a width. -/
def Width.bytes : Width → Nat
  | .byte => 1
  | .half => 2
  | .word => 4

/-- `MemRead(addr, 4)`, little-endian (20_memory.md R51). -/
def Memory.readWord (m : Memory) (a : Nat) : Word :=
  wordOfBytes (m.read a) (m.read (a + 1)) (m.read (a + 2)) (m.read (a + 3))

/-- `MemRead(addr, 2)`, little-endian (R51). -/
def Memory.readHalf (m : Memory) (a : Nat) : BitVec 16 := m.read (a + 1) ++ m.read a

/-- `MemWrite(addr, n, v)`: the low bytes of `v`, little-endian (R51). -/
def Memory.store (m : Memory) (w : Width) (a : Nat) (v : Word) : Memory :=
  match w with
  | .byte => m.write a (byteOfWord v 0)
  | .half => (m.write a (byteOfWord v 0)).write (a + 1) (byteOfWord v 1)
  | .word =>
    (((m.write a (byteOfWord v 0)).write (a + 1) (byteOfWord v 1)).write (a + 2) (byteOfWord v 2)).write (a + 3)
      (byteOfWord v 3)

/-- What a load does with the bytes it reads (20_memory.md R54). -/
inductive LoadKind where
  | word | byte | half | signedByte | signedHalf
deriving DecidableEq, Repr

/-- The width of a load. -/
def LoadKind.width : LoadKind → Width
  | .word => .word
  | .byte | .signedByte => .byte
  | .half | .signedHalf => .half

/-- The word a load of a kind gives its register: zero-extended or sign-extended (R54). -/
def Memory.load (m : Memory) (k : LoadKind) (a : Nat) : Word :=
  match k with
  | .word => m.readWord a
  | .byte => (m.read a).zeroExtend 32
  | .half => (m.readHalf a).zeroExtend 32
  | .signedByte => (m.read a).signExtend 32
  | .signedHalf => (m.readHalf a).signExtend 32

/-! ### Checks -/

/-- A check: the fault when the condition is true. -/
def raiseIf (b : Bool) (f : Fault) : Option Fault := if b then some f else none

/-- The fault of the first check that fails (60_exceptions.md R329: the order of the checks decides the fault). -/
def firstFault : List (Option Fault) → Option Fault
  | [] => none
  | some f :: _ => some f
  | none :: rest => firstFault rest

/-- An access of `n` bytes at `a` is inside memory, computed without wrap-around (20_memory.md R56). -/
def inMemory (c : Config) (a : Word) (n : Nat) : Bool :=
  decide (c.memBase.toNat ≤ a.toNat) && decide (a.toNat + n ≤ c.memBase.toNat + c.memSize)

/-- `AccessOutOfRange(a, n)` unless the access is inside memory (R56, R326). -/
def rangeFault (c : Config) (a : Word) (n : Nat) : Option Fault :=
  raiseIf (!inMemory c a n) (.accessOutOfRange a n)

/-- `DataMisaligned(a, n)` unless `a` is a multiple of `n` (20_memory.md R52, R325). -/
def alignFault (a : Word) (n : Nat) : Option Fault :=
  raiseIf (a.toNat % n != 0) (.dataMisaligned a n)

/-- The two checks of one data access, in the order of R329 step 9. -/
def accessChecks (c : Config) (a : Word) (n : Nat) : List (Option Fault) := [alignFault a n, rangeFault c a n]

/-- One instruction (41_conditional_execution.md R183, R184): when its condition fails it only advances the pc;
otherwise the first of its checks that fails stops the machine, and when none fails the next state is `t`. -/
def State.execute (s : State) (c : Cond) (checks : List (Option Fault)) (t : State) : Result :=
  if condPassed c s.flags then
    match firstFault checks with
    | some f => .fault f
    | none => .next t
  else .next s.advance

/-- An instruction that stops whenever its condition passes, whatever its operands (45_block_transfer.md R282). -/
def State.stopWith (s : State) (c : Cond) (f : Fault) : Result :=
  if condPassed c s.flags then .fault f else .next s.advance

/-! ### Fetch -/

/-- What stops a step before an instruction is fetched, in the order of R183 and R329 steps 1 to 3. -/
def State.fetchFault (s : State) : Option Fault :=
  firstFault [raiseIf (s.pc == s.cfg.endPc) .runEnded, raiseIf (s.pc.toNat % 4 != 0) (.fetchMisaligned s.pc),
    rangeFault s.cfg s.pc 4]

/-- `Fetch(pc)`: the word at the pc (20_memory.md R53). -/
def State.fetchWord (s : State) : Word := s.mem.readWord s.pc.toNat

/-- The state with an instruction's word stored at the pc, little-endian. -/
def State.placeWord (s : State) (w : Word) : State := s.withMem (s.mem.store .word s.pc.toNat w)

end Sys2Proof.Machine
end

