-- ==== Sys2Proof/Machine/Operands.lean ====
section
/-! DEFINITION. Operand 2, the shifter, the addresses of the transfers, the register list, and the checks of operand
combinations and of admitted features. -/

namespace Sys2Proof.Machine

/-! ### The shifter -/

/-- An operand value and the shifter's carry-out: the pair `(op2, sco)` of 40_data_processing.md R120. -/
structure Shifted where
  value : Word
  carry : Bool
deriving DecidableEq, Repr

/-- All 32 bits equal to bit 31 of `v`. -/
def signFill (v : Word) : Word := if v.getLsbD 31 then 0xFFFFFFFF#32 else 0#32

/-- `ShiftImm(v, kind, n, cin)` (R121). An amount field of 0 means LSL #0, LSR #32, ASR #32 and RRX. -/
def shiftImm (v : Word) (kind : ShiftKind) (n : BitVec 5) (cin : Bool) : Shifted :=
  match kind with
  | .lsl => if n = 0#5 then ⟨v, cin⟩ else ⟨v <<< n.toNat, v.getLsbD (32 - n.toNat)⟩
  | .lsr => if n = 0#5 then ⟨0#32, v.getLsbD 31⟩ else ⟨v >>> n.toNat, v.getLsbD (n.toNat - 1)⟩
  | .asr => if n = 0#5 then ⟨signFill v, v.getLsbD 31⟩ else ⟨v.sshiftRight n.toNat, v.getLsbD (n.toNat - 1)⟩
  | .ror =>
    if n = 0#5 then ⟨BitVec.ofBool cin ++ v.extractLsb' 1 31, v.getLsbD 0⟩
    else ⟨v.rotateRight n.toNat, v.getLsbD (n.toNat - 1)⟩

/-- `ShiftReg(v, kind, n, cin)` for the amount `n` in 0 to 255 (R122). -/
def shiftReg (v : Word) (kind : ShiftKind) (n : Nat) (cin : Bool) : Shifted :=
  if n = 0 then ⟨v, cin⟩
  else
    match kind with
    | .lsl =>
      if n < 32 then ⟨v <<< n, v.getLsbD (32 - n)⟩
      else if n = 32 then ⟨0#32, v.getLsbD 0⟩ else ⟨0#32, false⟩
    | .lsr =>
      if n < 32 then ⟨v >>> n, v.getLsbD (n - 1)⟩
      else if n = 32 then ⟨0#32, v.getLsbD 31⟩ else ⟨0#32, false⟩
    | .asr => if n < 32 then ⟨v.sshiftRight n, v.getLsbD (n - 1)⟩ else ⟨signFill v, v.getLsbD 31⟩
    | .ror =>
      if n % 32 = 0 then ⟨v, v.getLsbD 31⟩ else ⟨v.rotateRight (n % 32), v.getLsbD (n % 32 - 1)⟩

/-- The value of a rotated immediate: Imm rotated right by twice Rotate (30_encoding.md R87). -/
def rotImmValue (o : RotImm) : Word := (o.imm.zeroExtend 32).rotateRight (2 * o.rot.toNat)

/-- `ImmOperand(rot, imm8, cin)` (40_data_processing.md R123). -/
def immOperand (o : RotImm) (cin : Bool) : Shifted :=
  ⟨rotImmValue o, if o.rot = 0#4 then cin else (rotImmValue o).getLsbD 31⟩

/-- Operand 2, form imm (R120). -/
def State.op2Imm (s : State) (o : RotImm) : Shifted := immOperand o s.flags.c

/-- Operand 2, form reg3 (R120, R121). -/
def State.op2Reg3 (s : State) (o : ShiftedReg) : Shifted := shiftImm (s.reg o.rm) o.kind o.amount s.flags.c

/-- Operand 2, form reg4 (R120, R122): the amount is the low byte of Rs. -/
def State.op2Reg4 (s : State) (o : RegShiftedReg) : Shifted :=
  shiftReg (s.reg o.rm) o.kind ((s.reg o.rs).extractLsb' 0 8).toNat s.flags.c

/-! ### Addresses of single transfers -/

/-- The immediate offset of LDR and STR (44_data_transfer.md R241). -/
def offsetImm (off : BitVec 12) : Word := off.zeroExtend 32

/-- The immediate offset of the halfword forms (R254). -/
def offsetImm8 (off : BitVec 8) : Word := off.zeroExtend 32

/-- The register offset of LDR and STR; its carry-out is discarded (R241). -/
def State.offsetReg (s : State) (o : ShiftedReg) : Word := (shiftImm (s.reg o.rm) o.kind o.amount s.flags.c).value

/-- The base is updated: P = 0 or W = 1 (R242; with P = 0 the W bit has no effect). -/
def baseUpdated (ix : Indexing) : Bool := !ix.p || ix.w

/-- `moved`: the base plus or minus the offset (R242). -/
def State.moved (s : State) (ix : Indexing) (rn : Reg) (off : Word) : Word :=
  if ix.u then s.reg rn + off else s.reg rn - off

/-- The address used: `moved` when P = 1, the base when P = 0 (R242). -/
def State.transferAddress (s : State) (ix : Indexing) (rn : Reg) (off : Word) : Word :=
  if ix.p then s.moved ix rn off else s.reg rn

/-! ### Register lists -/

/-- The registers of a list in ascending order: bit i selects Ri (45_block_transfer.md R280, R285). -/
def registersOf (list : BitVec 16) : List Reg :=
  (List.range 16).filterMap (fun i => if list.getLsbD i then some (BitVec.ofNat 4 i) else none)

/-- 4n, the bytes of a block transfer (R281, R285). -/
def blockBytes (list : BitVec 16) : Word := BitVec.ofNat 32 (4 * (registersOf list).length)

/-- `start`, the lowest address of a block transfer (R285). -/
def State.blockStart (s : State) (ix : Indexing) (rn : Reg) (list : BitVec 16) : Word :=
  match ix.p, ix.u with
  | false, true => s.reg rn
  | true, true => s.reg rn + 4#32
  | false, false => s.reg rn - blockBytes list + 4#32
  | true, false => s.reg rn - blockBytes list

/-- `final`, what write-back leaves in the base register (R285). -/
def State.blockFinal (s : State) (ix : Indexing) (rn : Reg) (list : BitVec 16) : Word :=
  if ix.u then s.reg rn + blockBytes list else s.reg rn - blockBytes list

/-! ### Checks of operands and features -/

/-- `Unsupported(f)` unless the feature is admitted (60_exceptions.md R322). -/
def admitCheck (admitted : Bool) (f : Feature) : Option Fault := raiseIf (!admitted) (.unsupported f)

/-- `Unsupported(SPSR)` when bit 22 of MRS or MSR is 1 (46_status_register.md R304). -/
def spsrCheck (bit22 : Bool) : Option Fault := raiseIf bit22 (.unsupported .spsr)

/-- `Unsupported(RRX)` for ROR with amount field 0, unless `ADMIT_RRX` (40_data_processing.md R121). -/
def rrxCheck (c : Config) (o : ShiftedReg) : Option Fault :=
  raiseIf (o.kind == .ror && o.amount == 0#5 && !c.admitRrx) (.unsupported .rrx)

/-- Some register of the list is R15. -/
def anyPc (rs : List Reg) : Bool := rs.any (· == regPC)

/-- `Unpredictable(R15InReg4)` (R128). -/
def reg4Check (rs : List Reg) : Option Fault := raiseIf (anyPc rs) (.unpredictable .r15InReg4)

/-- `Unpredictable(SWithPcDest)` (R128). -/
def pcDestCheck (setFlags : Bool) (rd : Reg) : Option Fault :=
  raiseIf (setFlags && rd == regPC) (.unpredictable .sWithPcDest)

/-- `Unpredictable(MulOperands)` of MUL and MLA; `regs` are the registers it uses (43_multiply.md R223). -/
def mulCheck (rd rm : Reg) (regs : List Reg) : Option Fault :=
  raiseIf (rd == rm || anyPc regs) (.unpredictable .mulOperands)

/-- `Unpredictable(MulOperands)` of the long multiplies (R225). -/
def longMulCheck (rdHi rdLo rs rm : Reg) : Option Fault :=
  raiseIf (rdHi == rdLo || rdHi == rm || rdLo == rm || anyPc [rdHi, rdLo, rs, rm]) (.unpredictable .mulOperands)

/-- `Unpredictable(TransferOperands)` for an immediate offset; `pcBarred` says that Rd = 15 is barred
(44_data_transfer.md R248 a, b, e, f; R254). -/
def transferImmCheck (ix : Indexing) (rn rd : Reg) (pcBarred : Bool) : Option Fault :=
  raiseIf ((baseUpdated ix && (rn == regPC || rn == rd)) || (pcBarred && rd == regPC))
    (.unpredictable .transferOperands)

/-- `Unpredictable(TransferOperands)` for a register offset (R248 a to f; R254). -/
def transferRegCheck (ix : Indexing) (rn rd rm : Reg) (pcBarred : Bool) : Option Fault :=
  raiseIf ((baseUpdated ix && (rn == regPC || rn == rd || rm == rn)) || rm == regPC || (pcBarred && rd == regPC))
    (.unpredictable .transferOperands)

/-- `Unpredictable(SwapOperands)` (R252). -/
def swapCheck (rn rd rm : Reg) : Option Fault :=
  raiseIf (anyPc [rd, rm, rn] || rn == rd || rn == rm) (.unpredictable .swapOperands)

/-- `Unpredictable(BlockOperands)`; `store` adds the rule that R15 is not stored (45_block_transfer.md R290). -/
def blockCheck (ix : Indexing) (rn : Reg) (list : BitVec 16) (store : Bool) : Option Fault :=
  raiseIf (list == 0#16 || rn == regPC || (ix.w && list.getLsbD rn.toNat) || (store && list.getLsbD 15))
    (.unpredictable .blockOperands)

/-- `Unpredictable(PsrOperands)` (46_status_register.md R302, R303). -/
def psrCheck (r : Reg) : Option Fault := raiseIf (r == regPC) (.unpredictable .psrOperands)

end Sys2Proof.Machine
end

