-- ==== Sys2Proof/Machine/Block.lean ====
section
/-! DEFINITION. The block transfers LDM and STM (45_block_transfer.md R280 to R292). -/

namespace Sys2Proof.Machine

/-- The range checks of the words at `a`, `a + 4`, … modulo 2^32, one for each register (R286). -/
def blockRangeChecks (c : Config) : List Reg → Word → List (Option Fault)
  | [], _ => []
  | _ :: rest, a => rangeFault c a 4 :: blockRangeChecks c rest (a + 4#32)

/-- The checks of a block transfer that does not have S = 1, in the order of R286. -/
def State.blockChecks (s : State) (ix : Indexing) (rn : Reg) (list : BitVec 16) (store : Bool) :
    List (Option Fault) :=
  [blockCheck ix rn list store, alignFault (s.blockStart ix rn list) 4] ++
    blockRangeChecks s.cfg (registersOf list) (s.blockStart ix rn list)

/-- Write-back: `x[Rn] <- final` when W = 1 (R286). -/
def State.writeBack (s : State) (ix : Indexing) (rn : Reg) (final : Word) : State :=
  if ix.w then s.setReg rn final else s

/-- The registers loaded from the words of `m` at `a`, `a + 4`, …, in ascending order (R285, R286). -/
def State.loadRegs (m : Memory) : List Reg → Word → State → State
  | [], _, s => s
  | r :: rest, a, s => State.loadRegs m rest (a + 4#32) (s.setReg r (m.readWord a.toNat))

/-- The words at `a`, `a + 4`, … written with the registers of `s`, in ascending order (R285, R286). -/
def State.storeRegs (s : State) : List Reg → Word → Memory → Memory
  | [], _, m => m
  | r :: rest, a, m => s.storeRegs rest (a + 4#32) (m.store .word a.toNat (s.reg r))

/-- LDM (R288). -/
def execLdm (c : Cond) (ix : Indexing) (rn : Reg) (list : BitVec 16) (s : State) : Result :=
  s.execute c (s.blockChecks ix rn list false)
    (State.loadRegs s.mem (registersOf list) (s.blockStart ix rn list)
      (s.advance.writeBack ix rn (s.blockFinal ix rn list)))

/-- STM (R289). -/
def execStm (c : Cond) (ix : Indexing) (rn : Reg) (list : BitVec 16) (s : State) : Result :=
  s.execute c (s.blockChecks ix rn list true)
    ((s.advance.writeBack ix rn (s.blockFinal ix rn list)).withMem
      (s.storeRegs (registersOf list) (s.blockStart ix rn list) s.mem))

/-- LDM with bit 22 = 1: nothing for S = 1 to act on (R282). -/
def execLdmS (c : Cond) (_ix : Indexing) (_rn : Reg) (_list : BitVec 16) (s : State) : Result :=
  s.stopWith c (.unsupported .blockS)

/-- STM with bit 22 = 1: nothing for S = 1 to act on (R282). -/
def execStmS (c : Cond) (_ix : Indexing) (_rn : Reg) (_list : BitVec 16) (s : State) : Result :=
  s.stopWith c (.unsupported .blockS)

end Sys2Proof.Machine
end

