-- ==== Sys2Proof/Machine/Branch.lean ====
section
/-! DEFINITION. The branches B, BL and BX (42_branch.md R200 to R205). -/

namespace Sys2Proof.Machine

/-- `pc + 8 + 4 * signed_24(offset)` modulo 2^32 (R200). -/
def State.branchTarget (s : State) (off : BitVec 24) : Word := s.pc + 8#32 + 4#32 * off.signExtend 32

/-- B (R200). -/
def execB (c : Cond) (off : BitVec 24) (s : State) : Result :=
  s.execute c [] (s.setReg regPC (s.branchTarget off))

/-- BL (R201): R14 gets the address of the next instruction. -/
def execBl (c : Cond) (off : BitVec 24) (s : State) : Result :=
  s.execute c [] ((s.setReg regLR (s.pc + 4#32)).setReg regPC (s.branchTarget off))

/-- BX (R202): all 32 bits of the register. -/
def execBx (c : Cond) (rn : Reg) (s : State) : Result :=
  s.execute c [] (s.setReg regPC (s.reg rn))

end Sys2Proof.Machine
end

