-- ==== Sys2Proof/Machine/DataProcessing.lean ====
section
/-! DEFINITION. The sixteen data-processing instructions in their three operand forms (40_data_processing.md R127 to
R146). `alu…` is the operation of an instruction: its value, and the flags it writes when S = 1. -/

namespace Sys2Proof.Machine

/-! ### The operations -/

/-- AND: `Operand1 & Operand2` (R130). -/
def aluAnd (f : Flags) (a : Word) (o : Shifted) : AluResult := logicalResult f (a &&& o.value) o.carry

/-- EOR: `Operand1 ^ Operand2` (R132). -/
def aluEor (f : Flags) (a : Word) (o : Shifted) : AluResult := logicalResult f (a ^^^ o.value) o.carry

/-- SUB: `Operand1 - Operand2` (R135). -/
def aluSub (_f : Flags) (a : Word) (o : Shifted) : AluResult := arithmeticResult (addWithCarry a (~~~o.value) true)

/-- RSB: `Operand2 - Operand1` (R136). -/
def aluRsb (_f : Flags) (a : Word) (o : Shifted) : AluResult := arithmeticResult (addWithCarry o.value (~~~a) true)

/-- ADD: `Operand1 + Operand2` (R133). -/
def aluAdd (_f : Flags) (a : Word) (o : Shifted) : AluResult := arithmeticResult (addWithCarry a o.value false)

/-- ADC: `Operand1 + Operand2 + carry` (R134). -/
def aluAdc (f : Flags) (a : Word) (o : Shifted) : AluResult := arithmeticResult (addWithCarry a o.value f.c)

/-- SBC: `Operand1 - Operand2 - !carry` (R137). -/
def aluSbc (f : Flags) (a : Word) (o : Shifted) : AluResult := arithmeticResult (addWithCarry a (~~~o.value) f.c)

/-- RSC: `Operand2 - Operand1 - !carry` (R138). -/
def aluRsc (f : Flags) (a : Word) (o : Shifted) : AluResult := arithmeticResult (addWithCarry o.value (~~~a) f.c)

/-- TST: the flags of `Operand1 & Operand2` (R141). -/
def aluTst (f : Flags) (a : Word) (o : Shifted) : AluResult := logicalResult f (a &&& o.value) o.carry

/-- TEQ: the flags of `Operand1 ^ Operand2` (R142). -/
def aluTeq (f : Flags) (a : Word) (o : Shifted) : AluResult := logicalResult f (a ^^^ o.value) o.carry

/-- CMP: the flags of `Operand1 - Operand2` (R139). -/
def aluCmp (_f : Flags) (a : Word) (o : Shifted) : AluResult := arithmeticResult (addWithCarry a (~~~o.value) true)

/-- CMN: the flags of `Operand1 + Operand2` (R140). -/
def aluCmn (_f : Flags) (a : Word) (o : Shifted) : AluResult := arithmeticResult (addWithCarry a o.value false)

/-- ORR: `Operand1 | Operand2` (R131). -/
def aluOrr (f : Flags) (a : Word) (o : Shifted) : AluResult := logicalResult f (a ||| o.value) o.carry

/-- MOV: `Operand2` (R144). -/
def aluMov (f : Flags) (o : Shifted) : AluResult := logicalResult f o.value o.carry

/-- BIC: `Operand1 & !Operand2` (R143). -/
def aluBic (f : Flags) (a : Word) (o : Shifted) : AluResult := logicalResult f (a &&& ~~~o.value) o.carry

/-- MVN: `!Operand2` (R145). -/
def aluMvn (f : Flags) (o : Shifted) : AluResult := logicalResult f (~~~o.value) o.carry

/-! ### The common skeleton -/

/-- An instruction that writes Rd, and the flags when S = 1 (R127). -/
def State.dataProcess (s : State) (c : Cond) (setFlags : Bool) (rd : Reg) (checks : List (Option Fault))
    (r : AluResult) : Result :=
  s.execute c (checks ++ [pcDestCheck setFlags rd])
    ((s.advance.withFlags (if setFlags then r.flags else s.flags)).setReg rd r.value)

/-- TST, TEQ, CMP and CMN: the flags are written and no register (R127, R129). -/
def State.compare (s : State) (c : Cond) (checks : List (Option Fault)) (r : AluResult) : Result :=
  s.execute c checks (s.advance.withFlags r.flags)

/-! ### The instructions -/

/-- AND, form imm (R130). -/
def execAndImm (c : Cond) (setFlags : Bool) (rn rd : Reg) (o : RotImm) (s : State) : Result :=
  s.dataProcess c setFlags rd [] (aluAnd s.flags (s.reg rn) (s.op2Imm o))

/-- AND, form reg3 (R130). -/
def execAndReg3 (c : Cond) (setFlags : Bool) (rn rd : Reg) (o : ShiftedReg) (s : State) : Result :=
  s.dataProcess c setFlags rd [rrxCheck s.cfg o] (aluAnd s.flags (s.reg rn) (s.op2Reg3 o))

/-- AND, form reg4 (R130). -/
def execAndReg4 (c : Cond) (setFlags : Bool) (rn rd : Reg) (o : RegShiftedReg) (s : State) : Result :=
  s.dataProcess c setFlags rd [reg4Check [rn, o.rm, o.rs]] (aluAnd s.flags (s.reg rn) (s.op2Reg4 o))

/-- EOR, form imm (R132). -/
def execEorImm (c : Cond) (setFlags : Bool) (rn rd : Reg) (o : RotImm) (s : State) : Result :=
  s.dataProcess c setFlags rd [] (aluEor s.flags (s.reg rn) (s.op2Imm o))

/-- EOR, form reg3 (R132). -/
def execEorReg3 (c : Cond) (setFlags : Bool) (rn rd : Reg) (o : ShiftedReg) (s : State) : Result :=
  s.dataProcess c setFlags rd [rrxCheck s.cfg o] (aluEor s.flags (s.reg rn) (s.op2Reg3 o))

/-- EOR, form reg4 (R132). -/
def execEorReg4 (c : Cond) (setFlags : Bool) (rn rd : Reg) (o : RegShiftedReg) (s : State) : Result :=
  s.dataProcess c setFlags rd [reg4Check [rn, o.rm, o.rs]] (aluEor s.flags (s.reg rn) (s.op2Reg4 o))

/-- SUB, form imm (R135). -/
def execSubImm (c : Cond) (setFlags : Bool) (rn rd : Reg) (o : RotImm) (s : State) : Result :=
  s.dataProcess c setFlags rd [] (aluSub s.flags (s.reg rn) (s.op2Imm o))

/-- SUB, form reg3 (R135). -/
def execSubReg3 (c : Cond) (setFlags : Bool) (rn rd : Reg) (o : ShiftedReg) (s : State) : Result :=
  s.dataProcess c setFlags rd [rrxCheck s.cfg o] (aluSub s.flags (s.reg rn) (s.op2Reg3 o))

/-- SUB, form reg4 (R135). -/
def execSubReg4 (c : Cond) (setFlags : Bool) (rn rd : Reg) (o : RegShiftedReg) (s : State) : Result :=
  s.dataProcess c setFlags rd [reg4Check [rn, o.rm, o.rs]] (aluSub s.flags (s.reg rn) (s.op2Reg4 o))

/-- RSB, form imm (R136). -/
def execRsbImm (c : Cond) (setFlags : Bool) (rn rd : Reg) (o : RotImm) (s : State) : Result :=
  s.dataProcess c setFlags rd [] (aluRsb s.flags (s.reg rn) (s.op2Imm o))

/-- RSB, form reg3 (R136). -/
def execRsbReg3 (c : Cond) (setFlags : Bool) (rn rd : Reg) (o : ShiftedReg) (s : State) : Result :=
  s.dataProcess c setFlags rd [rrxCheck s.cfg o] (aluRsb s.flags (s.reg rn) (s.op2Reg3 o))

/-- RSB, form reg4 (R136). -/
def execRsbReg4 (c : Cond) (setFlags : Bool) (rn rd : Reg) (o : RegShiftedReg) (s : State) : Result :=
  s.dataProcess c setFlags rd [reg4Check [rn, o.rm, o.rs]] (aluRsb s.flags (s.reg rn) (s.op2Reg4 o))

/-- ADD, form imm (R133). -/
def execAddImm (c : Cond) (setFlags : Bool) (rn rd : Reg) (o : RotImm) (s : State) : Result :=
  s.dataProcess c setFlags rd [] (aluAdd s.flags (s.reg rn) (s.op2Imm o))

/-- ADD, form reg3 (R133). -/
def execAddReg3 (c : Cond) (setFlags : Bool) (rn rd : Reg) (o : ShiftedReg) (s : State) : Result :=
  s.dataProcess c setFlags rd [rrxCheck s.cfg o] (aluAdd s.flags (s.reg rn) (s.op2Reg3 o))

/-- ADD, form reg4 (R133). -/
def execAddReg4 (c : Cond) (setFlags : Bool) (rn rd : Reg) (o : RegShiftedReg) (s : State) : Result :=
  s.dataProcess c setFlags rd [reg4Check [rn, o.rm, o.rs]] (aluAdd s.flags (s.reg rn) (s.op2Reg4 o))

/-- ADC, form imm (R134). -/
def execAdcImm (c : Cond) (setFlags : Bool) (rn rd : Reg) (o : RotImm) (s : State) : Result :=
  s.dataProcess c setFlags rd [] (aluAdc s.flags (s.reg rn) (s.op2Imm o))

/-- ADC, form reg3 (R134). -/
def execAdcReg3 (c : Cond) (setFlags : Bool) (rn rd : Reg) (o : ShiftedReg) (s : State) : Result :=
  s.dataProcess c setFlags rd [rrxCheck s.cfg o] (aluAdc s.flags (s.reg rn) (s.op2Reg3 o))

/-- ADC, form reg4 (R134). -/
def execAdcReg4 (c : Cond) (setFlags : Bool) (rn rd : Reg) (o : RegShiftedReg) (s : State) : Result :=
  s.dataProcess c setFlags rd [reg4Check [rn, o.rm, o.rs]] (aluAdc s.flags (s.reg rn) (s.op2Reg4 o))

/-- SBC, form imm (R137). -/
def execSbcImm (c : Cond) (setFlags : Bool) (rn rd : Reg) (o : RotImm) (s : State) : Result :=
  s.dataProcess c setFlags rd [] (aluSbc s.flags (s.reg rn) (s.op2Imm o))

/-- SBC, form reg3 (R137). -/
def execSbcReg3 (c : Cond) (setFlags : Bool) (rn rd : Reg) (o : ShiftedReg) (s : State) : Result :=
  s.dataProcess c setFlags rd [rrxCheck s.cfg o] (aluSbc s.flags (s.reg rn) (s.op2Reg3 o))

/-- SBC, form reg4 (R137). -/
def execSbcReg4 (c : Cond) (setFlags : Bool) (rn rd : Reg) (o : RegShiftedReg) (s : State) : Result :=
  s.dataProcess c setFlags rd [reg4Check [rn, o.rm, o.rs]] (aluSbc s.flags (s.reg rn) (s.op2Reg4 o))

/-- RSC, form imm (R138). -/
def execRscImm (c : Cond) (setFlags : Bool) (rn rd : Reg) (o : RotImm) (s : State) : Result :=
  s.dataProcess c setFlags rd [] (aluRsc s.flags (s.reg rn) (s.op2Imm o))

/-- RSC, form reg3 (R138). -/
def execRscReg3 (c : Cond) (setFlags : Bool) (rn rd : Reg) (o : ShiftedReg) (s : State) : Result :=
  s.dataProcess c setFlags rd [rrxCheck s.cfg o] (aluRsc s.flags (s.reg rn) (s.op2Reg3 o))

/-- RSC, form reg4 (R138). -/
def execRscReg4 (c : Cond) (setFlags : Bool) (rn rd : Reg) (o : RegShiftedReg) (s : State) : Result :=
  s.dataProcess c setFlags rd [reg4Check [rn, o.rm, o.rs]] (aluRsc s.flags (s.reg rn) (s.op2Reg4 o))

/-- TST, form imm (R141). -/
def execTstImm (c : Cond) (rn _rd : Reg) (o : RotImm) (s : State) : Result :=
  s.compare c [] (aluTst s.flags (s.reg rn) (s.op2Imm o))

/-- TST, form reg3 (R141). -/
def execTstReg3 (c : Cond) (rn _rd : Reg) (o : ShiftedReg) (s : State) : Result :=
  s.compare c [rrxCheck s.cfg o] (aluTst s.flags (s.reg rn) (s.op2Reg3 o))

/-- TST, form reg4 (R141). -/
def execTstReg4 (c : Cond) (rn _rd : Reg) (o : RegShiftedReg) (s : State) : Result :=
  s.compare c [reg4Check [rn, o.rm, o.rs]] (aluTst s.flags (s.reg rn) (s.op2Reg4 o))

/-- TEQ, form imm (R142). -/
def execTeqImm (c : Cond) (rn _rd : Reg) (o : RotImm) (s : State) : Result :=
  s.compare c [] (aluTeq s.flags (s.reg rn) (s.op2Imm o))

/-- TEQ, form reg3 (R142). -/
def execTeqReg3 (c : Cond) (rn _rd : Reg) (o : ShiftedReg) (s : State) : Result :=
  s.compare c [rrxCheck s.cfg o] (aluTeq s.flags (s.reg rn) (s.op2Reg3 o))

/-- TEQ, form reg4 (R142). -/
def execTeqReg4 (c : Cond) (rn _rd : Reg) (o : RegShiftedReg) (s : State) : Result :=
  s.compare c [reg4Check [rn, o.rm, o.rs]] (aluTeq s.flags (s.reg rn) (s.op2Reg4 o))

/-- CMP, form imm (R139). -/
def execCmpImm (c : Cond) (rn _rd : Reg) (o : RotImm) (s : State) : Result :=
  s.compare c [] (aluCmp s.flags (s.reg rn) (s.op2Imm o))

/-- CMP, form reg3 (R139). -/
def execCmpReg3 (c : Cond) (rn _rd : Reg) (o : ShiftedReg) (s : State) : Result :=
  s.compare c [rrxCheck s.cfg o] (aluCmp s.flags (s.reg rn) (s.op2Reg3 o))

/-- CMP, form reg4 (R139). -/
def execCmpReg4 (c : Cond) (rn _rd : Reg) (o : RegShiftedReg) (s : State) : Result :=
  s.compare c [reg4Check [rn, o.rm, o.rs]] (aluCmp s.flags (s.reg rn) (s.op2Reg4 o))

/-- CMN, form imm (R140). -/
def execCmnImm (c : Cond) (rn _rd : Reg) (o : RotImm) (s : State) : Result :=
  s.compare c [] (aluCmn s.flags (s.reg rn) (s.op2Imm o))

/-- CMN, form reg3 (R140). -/
def execCmnReg3 (c : Cond) (rn _rd : Reg) (o : ShiftedReg) (s : State) : Result :=
  s.compare c [rrxCheck s.cfg o] (aluCmn s.flags (s.reg rn) (s.op2Reg3 o))

/-- CMN, form reg4 (R140). -/
def execCmnReg4 (c : Cond) (rn _rd : Reg) (o : RegShiftedReg) (s : State) : Result :=
  s.compare c [reg4Check [rn, o.rm, o.rs]] (aluCmn s.flags (s.reg rn) (s.op2Reg4 o))

/-- ORR, form imm (R131). -/
def execOrrImm (c : Cond) (setFlags : Bool) (rn rd : Reg) (o : RotImm) (s : State) : Result :=
  s.dataProcess c setFlags rd [] (aluOrr s.flags (s.reg rn) (s.op2Imm o))

/-- ORR, form reg3 (R131). -/
def execOrrReg3 (c : Cond) (setFlags : Bool) (rn rd : Reg) (o : ShiftedReg) (s : State) : Result :=
  s.dataProcess c setFlags rd [rrxCheck s.cfg o] (aluOrr s.flags (s.reg rn) (s.op2Reg3 o))

/-- ORR, form reg4 (R131). -/
def execOrrReg4 (c : Cond) (setFlags : Bool) (rn rd : Reg) (o : RegShiftedReg) (s : State) : Result :=
  s.dataProcess c setFlags rd [reg4Check [rn, o.rm, o.rs]] (aluOrr s.flags (s.reg rn) (s.op2Reg4 o))

/-- MOV, form imm (R144). -/
def execMovImm (c : Cond) (setFlags : Bool) (_rn rd : Reg) (o : RotImm) (s : State) : Result :=
  s.dataProcess c setFlags rd [] (aluMov s.flags (s.op2Imm o))

/-- MOV, form reg3 (R144). -/
def execMovReg3 (c : Cond) (setFlags : Bool) (_rn rd : Reg) (o : ShiftedReg) (s : State) : Result :=
  s.dataProcess c setFlags rd [rrxCheck s.cfg o] (aluMov s.flags (s.op2Reg3 o))

/-- MOV, form reg4 (R144); the ignored Rn may be R15 (R106; log 12). -/
def execMovReg4 (c : Cond) (setFlags : Bool) (_rn rd : Reg) (o : RegShiftedReg) (s : State) : Result :=
  s.dataProcess c setFlags rd [reg4Check [o.rm, o.rs]] (aluMov s.flags (s.op2Reg4 o))

/-- BIC, form imm (R143). -/
def execBicImm (c : Cond) (setFlags : Bool) (rn rd : Reg) (o : RotImm) (s : State) : Result :=
  s.dataProcess c setFlags rd [] (aluBic s.flags (s.reg rn) (s.op2Imm o))

/-- BIC, form reg3 (R143). -/
def execBicReg3 (c : Cond) (setFlags : Bool) (rn rd : Reg) (o : ShiftedReg) (s : State) : Result :=
  s.dataProcess c setFlags rd [rrxCheck s.cfg o] (aluBic s.flags (s.reg rn) (s.op2Reg3 o))

/-- BIC, form reg4 (R143). -/
def execBicReg4 (c : Cond) (setFlags : Bool) (rn rd : Reg) (o : RegShiftedReg) (s : State) : Result :=
  s.dataProcess c setFlags rd [reg4Check [rn, o.rm, o.rs]] (aluBic s.flags (s.reg rn) (s.op2Reg4 o))

/-- MVN, form imm (R145). -/
def execMvnImm (c : Cond) (setFlags : Bool) (_rn rd : Reg) (o : RotImm) (s : State) : Result :=
  s.dataProcess c setFlags rd [] (aluMvn s.flags (s.op2Imm o))

/-- MVN, form reg3 (R145). -/
def execMvnReg3 (c : Cond) (setFlags : Bool) (_rn rd : Reg) (o : ShiftedReg) (s : State) : Result :=
  s.dataProcess c setFlags rd [rrxCheck s.cfg o] (aluMvn s.flags (s.op2Reg3 o))

/-- MVN, form reg4 (R145); the ignored Rn may be R15 (R106; log 12). -/
def execMvnReg4 (c : Cond) (setFlags : Bool) (_rn rd : Reg) (o : RegShiftedReg) (s : State) : Result :=
  s.dataProcess c setFlags rd [reg4Check [o.rm, o.rs]] (aluMvn s.flags (s.op2Reg4 o))

end Sys2Proof.Machine
end

