-- ==== Sys2Proof/Machine/Multiply.lean ====
section
/-! DEFINITION. The multiplies (43_multiply.md R220 to R227). -/

namespace Sys2Proof.Machine

/-- The flags of a multiply: with S = 1, N and Z from the result, C the next draw of `MUL_C`, V unchanged; without,
nothing (R222, R226; log 10). -/
def State.withMulFlags (s : State) (setFlags n z : Bool) : State :=
  if setFlags then
    { s with flags := multiplyFlags s.flags n z (Config.mulC s.mulDraws), mulDraws := s.mulDraws + 1 }
  else s

/-- A multiply with a 32-bit result (R220, R221, R222). -/
def State.mul32 (s : State) (c : Cond) (setFlags : Bool) (check : Option Fault) (rd : Reg) (value : Word) : Result :=
  s.execute c [check] ((s.advance.withMulFlags setFlags value.msb (value == 0#32)).setReg rd value)

/-- A multiply with a 64-bit result in RdHi : RdLo (R225, R226). -/
def State.mul64 (s : State) (c : Cond) (setFlags : Bool) (rdHi rdLo rs rm : Reg) (p : BitVec 64) : Result :=
  s.execute c [admitCheck s.cfg.admitLongMul .longMultiply, longMulCheck rdHi rdLo rs rm]
    (((s.advance.withMulFlags setFlags p.msb (p == 0#64)).setReg rdHi (p.extractLsb' 32 32)).setReg rdLo
      (p.extractLsb' 0 32))

/-- The unsigned product of two words (R225). -/
def productU (a b : Word) : BitVec 64 := a.zeroExtend 64 * b.zeroExtend 64

/-- The signed product of two words (R225). -/
def productS (a b : Word) : BitVec 64 := a.signExtend 64 * b.signExtend 64

/-- `x[RdHi] : x[RdLo]` (R225). -/
def State.regPair (s : State) (rdHi rdLo : Reg) : BitVec 64 := s.reg rdHi ++ s.reg rdLo

/-- MUL (R220); Rn is ignored. -/
def execMul (c : Cond) (setFlags : Bool) (rd _rn rs rm : Reg) (s : State) : Result :=
  s.mul32 c setFlags (mulCheck rd rm [rd, rm, rs]) rd (s.reg rm * s.reg rs)

/-- MLA (R221). -/
def execMla (c : Cond) (setFlags : Bool) (rd rn rs rm : Reg) (s : State) : Result :=
  s.mul32 c setFlags (mulCheck rd rm [rd, rm, rs, rn]) rd (s.reg rm * s.reg rs + s.reg rn)

/-- UMULL, tier 2 (R225). -/
def execUmull (c : Cond) (setFlags : Bool) (rdHi rdLo rs rm : Reg) (s : State) : Result :=
  s.mul64 c setFlags rdHi rdLo rs rm (productU (s.reg rm) (s.reg rs))

/-- UMLAL, tier 2 (R225). -/
def execUmlal (c : Cond) (setFlags : Bool) (rdHi rdLo rs rm : Reg) (s : State) : Result :=
  s.mul64 c setFlags rdHi rdLo rs rm (productU (s.reg rm) (s.reg rs) + s.regPair rdHi rdLo)

/-- SMULL, tier 2 (R225). -/
def execSmull (c : Cond) (setFlags : Bool) (rdHi rdLo rs rm : Reg) (s : State) : Result :=
  s.mul64 c setFlags rdHi rdLo rs rm (productS (s.reg rm) (s.reg rs))

/-- SMLAL, tier 2 (R225). -/
def execSmlal (c : Cond) (setFlags : Bool) (rdHi rdLo rs rm : Reg) (s : State) : Result :=
  s.mul64 c setFlags rdHi rdLo rs rm (productS (s.reg rm) (s.reg rs) + s.regPair rdHi rdLo)

end Sys2Proof.Machine
end

