-- ==== Sys2Proof/Machine/Status.lean ====
section
/-! DEFINITION. The status register transfers MRS and MSR, tier 2 (46_status_register.md R300 to R305). -/

namespace Sys2Proof.Machine

/-- An MSR that writes the flags from `v`; bits 27 to 0 of `v` are ignored (R303). -/
def State.msrOp (s : State) (c : Cond) (pd : Bool) (checks : List (Option Fault)) (v : Word) : Result :=
  s.execute c ([admitCheck s.cfg.admitPsr .psr, spsrCheck pd] ++ checks) (s.advance.withFlags (flagsOfPsr v))

/-- MRS (R302). -/
def execMrs (c : Cond) (ps : Bool) (rd : Reg) (s : State) : Result :=
  s.execute c [admitCheck s.cfg.admitPsr .psr, spsrCheck ps, psrCheck rd]
    (s.advance.setReg rd (psrImage s.flags s.cfg.psrLow))

/-- MSR from a register, whole PSR: the PSR has only flags (R303). -/
def execMsrReg (c : Cond) (pd : Bool) (rm : Reg) (s : State) : Result :=
  s.msrOp c pd [psrCheck rm] (s.reg rm)

/-- MSR from a register, flags (R303). -/
def execMsrRegFlags (c : Cond) (pd : Bool) (rm : Reg) (s : State) : Result :=
  s.msrOp c pd [psrCheck rm] (s.reg rm)

/-- MSR from an immediate, flags (R303). -/
def execMsrImmFlags (c : Cond) (pd : Bool) (o : RotImm) (s : State) : Result :=
  s.msrOp c pd [] (rotImmValue o)

end Sys2Proof.Machine
end

