-- ==== Sys2Proof/Machine/Transfer.lean ====
section
/-! DEFINITION. The single data transfers LDR, STR, LDRB, STRB, the halfword and signed transfers, SWP and SWPB
(44_data_transfer.md R240 to R258). -/

namespace Sys2Proof.Machine

/-- The base update of a transfer: `x[Rn] <- moved` when P = 0 or W = 1 (R242). -/
def State.updateBase (s : State) (ix : Indexing) (rn : Reg) (moved : Word) : State :=
  if baseUpdated ix then s.setReg rn moved else s

/-- A load, in the order of events of R251: `checks` come before the checks of the access. -/
def State.loadOp (s : State) (c : Cond) (checks : List (Option Fault)) (k : LoadKind) (ix : Indexing) (rn rd : Reg)
    (off : Word) : Result :=
  s.execute c (checks ++ accessChecks s.cfg (s.transferAddress ix rn off) k.width.bytes)
    ((s.advance.updateBase ix rn (s.moved ix rn off)).setReg rd
      (s.mem.load k (s.transferAddress ix rn off).toNat))

/-- A store, in the order of events of R251: Rd is read before anything is written. -/
def State.storeOp (s : State) (c : Cond) (checks : List (Option Fault)) (w : Width) (ix : Indexing) (rn rd : Reg)
    (off : Word) : Result :=
  s.execute c (checks ++ accessChecks s.cfg (s.transferAddress ix rn off) w.bytes)
    ((s.advance.updateBase ix rn (s.moved ix rn off)).withMem
      (s.mem.store w (s.transferAddress ix rn off).toNat (s.reg rd)))

/-- A swap, one indivisible step: the memory at the address in Rn goes to Rd and Rm goes to memory (R252, R253). -/
def State.swapOp (s : State) (c : Cond) (checks : List (Option Fault)) (k : LoadKind) (rn rd rm : Reg) : Result :=
  s.execute c (checks ++ [swapCheck rn rd rm] ++ accessChecks s.cfg (s.reg rn) k.width.bytes)
    ((s.advance.withMem (s.mem.store k.width (s.reg rn).toNat (s.reg rm))).setReg rd
      (s.mem.load k (s.reg rn).toNat))

/-! ### LDR, STR, LDRB, STRB -/

/-- LDR with an immediate offset (R244). -/
def execLdrImm (c : Cond) (ix : Indexing) (rn rd : Reg) (off : BitVec 12) (s : State) : Result :=
  s.loadOp c [transferImmCheck ix rn rd false] .word ix rn rd (offsetImm off)

/-- LDR with a register offset (R244). -/
def execLdrReg (c : Cond) (ix : Indexing) (rn rd : Reg) (o : ShiftedReg) (s : State) : Result :=
  s.loadOp c [rrxCheck s.cfg o, transferRegCheck ix rn rd o.rm false] .word ix rn rd (s.offsetReg o)

/-- STR with an immediate offset (R245). -/
def execStrImm (c : Cond) (ix : Indexing) (rn rd : Reg) (off : BitVec 12) (s : State) : Result :=
  s.storeOp c [transferImmCheck ix rn rd true] .word ix rn rd (offsetImm off)

/-- STR with a register offset (R245). -/
def execStrReg (c : Cond) (ix : Indexing) (rn rd : Reg) (o : ShiftedReg) (s : State) : Result :=
  s.storeOp c [rrxCheck s.cfg o, transferRegCheck ix rn rd o.rm true] .word ix rn rd (s.offsetReg o)

/-- LDRB with an immediate offset (R246). -/
def execLdrbImm (c : Cond) (ix : Indexing) (rn rd : Reg) (off : BitVec 12) (s : State) : Result :=
  s.loadOp c [transferImmCheck ix rn rd true] .byte ix rn rd (offsetImm off)

/-- LDRB with a register offset (R246). -/
def execLdrbReg (c : Cond) (ix : Indexing) (rn rd : Reg) (o : ShiftedReg) (s : State) : Result :=
  s.loadOp c [rrxCheck s.cfg o, transferRegCheck ix rn rd o.rm true] .byte ix rn rd (s.offsetReg o)

/-- STRB with an immediate offset (R247). -/
def execStrbImm (c : Cond) (ix : Indexing) (rn rd : Reg) (off : BitVec 12) (s : State) : Result :=
  s.storeOp c [transferImmCheck ix rn rd true] .byte ix rn rd (offsetImm off)

/-- STRB with a register offset (R247). -/
def execStrbReg (c : Cond) (ix : Indexing) (rn rd : Reg) (o : ShiftedReg) (s : State) : Result :=
  s.storeOp c [rrxCheck s.cfg o, transferRegCheck ix rn rd o.rm true] .byte ix rn rd (s.offsetReg o)

/-! ### SWP and SWPB -/

/-- SWP (R252). -/
def execSwp (c : Cond) (rn rd rm : Reg) (s : State) : Result :=
  s.swapOp c [] .word rn rd rm

/-- SWPB, tier 2 (R253). -/
def execSwpb (c : Cond) (rn rd rm : Reg) (s : State) : Result :=
  s.swapOp c [admitCheck s.cfg.admitSwpb .swpb] .byte rn rd rm

/-! ### Halfword and signed transfers, tier 2 (R254) -/

/-- LDRH with a register offset (R255). -/
def execLdrhReg (c : Cond) (ix : Indexing) (rn rd rm : Reg) (s : State) : Result :=
  s.loadOp c [admitCheck s.cfg.admitHalfword .halfword, transferRegCheck ix rn rd rm true] .half ix rn rd (s.reg rm)

/-- LDRH with an immediate offset (R255). -/
def execLdrhImm (c : Cond) (ix : Indexing) (rn rd : Reg) (off : BitVec 8) (s : State) : Result :=
  s.loadOp c [admitCheck s.cfg.admitHalfword .halfword, transferImmCheck ix rn rd true] .half ix rn rd (offsetImm8 off)

/-- STRH with a register offset (R256). -/
def execStrhReg (c : Cond) (ix : Indexing) (rn rd rm : Reg) (s : State) : Result :=
  s.storeOp c [admitCheck s.cfg.admitHalfword .halfword, transferRegCheck ix rn rd rm true] .half ix rn rd (s.reg rm)

/-- STRH with an immediate offset (R256). -/
def execStrhImm (c : Cond) (ix : Indexing) (rn rd : Reg) (off : BitVec 8) (s : State) : Result :=
  s.storeOp c [admitCheck s.cfg.admitHalfword .halfword, transferImmCheck ix rn rd true] .half ix rn rd (offsetImm8 off)

/-- LDRSB with a register offset (R257). -/
def execLdrsbReg (c : Cond) (ix : Indexing) (rn rd rm : Reg) (s : State) : Result :=
  s.loadOp c [admitCheck s.cfg.admitHalfword .halfword, transferRegCheck ix rn rd rm true] .signedByte ix rn rd (s.reg rm)

/-- LDRSB with an immediate offset (R257). -/
def execLdrsbImm (c : Cond) (ix : Indexing) (rn rd : Reg) (off : BitVec 8) (s : State) : Result :=
  s.loadOp c [admitCheck s.cfg.admitHalfword .halfword, transferImmCheck ix rn rd true] .signedByte ix rn rd (offsetImm8 off)

/-- LDRSH with a register offset (R258). -/
def execLdrshReg (c : Cond) (ix : Indexing) (rn rd rm : Reg) (s : State) : Result :=
  s.loadOp c [admitCheck s.cfg.admitHalfword .halfword, transferRegCheck ix rn rd rm true] .signedHalf ix rn rd (s.reg rm)

/-- LDRSH with an immediate offset (R258). -/
def execLdrshImm (c : Cond) (ix : Indexing) (rn rd : Reg) (off : BitVec 8) (s : State) : Result :=
  s.loadOp c [admitCheck s.cfg.admitHalfword .halfword, transferImmCheck ix rn rd true] .signedHalf ix rn rd (offsetImm8 off)

end Sys2Proof.Machine
end

