-- ==== Sys2Proof/Machine/Dispatch.lean ====
section
/-! DEFINITION. The meaning of each instruction: one arm per constructor of `Instr`. -/

namespace Sys2Proof.Machine

def exec (i : Instr) (s : State) : Host.Outcome State Fault Refusal :=
  match i with
  | .andImm c sf rn rd op2 => Sys2Proof.Machine.execAndImm c sf rn rd op2 s
  | .andReg3 c sf rn rd op2 => Sys2Proof.Machine.execAndReg3 c sf rn rd op2 s
  | .andReg4 c sf rn rd op2 => Sys2Proof.Machine.execAndReg4 c sf rn rd op2 s
  | .eorImm c sf rn rd op2 => Sys2Proof.Machine.execEorImm c sf rn rd op2 s
  | .eorReg3 c sf rn rd op2 => Sys2Proof.Machine.execEorReg3 c sf rn rd op2 s
  | .eorReg4 c sf rn rd op2 => Sys2Proof.Machine.execEorReg4 c sf rn rd op2 s
  | .subImm c sf rn rd op2 => Sys2Proof.Machine.execSubImm c sf rn rd op2 s
  | .subReg3 c sf rn rd op2 => Sys2Proof.Machine.execSubReg3 c sf rn rd op2 s
  | .subReg4 c sf rn rd op2 => Sys2Proof.Machine.execSubReg4 c sf rn rd op2 s
  | .rsbImm c sf rn rd op2 => Sys2Proof.Machine.execRsbImm c sf rn rd op2 s
  | .rsbReg3 c sf rn rd op2 => Sys2Proof.Machine.execRsbReg3 c sf rn rd op2 s
  | .rsbReg4 c sf rn rd op2 => Sys2Proof.Machine.execRsbReg4 c sf rn rd op2 s
  | .addImm c sf rn rd op2 => Sys2Proof.Machine.execAddImm c sf rn rd op2 s
  | .addReg3 c sf rn rd op2 => Sys2Proof.Machine.execAddReg3 c sf rn rd op2 s
  | .addReg4 c sf rn rd op2 => Sys2Proof.Machine.execAddReg4 c sf rn rd op2 s
  | .adcImm c sf rn rd op2 => Sys2Proof.Machine.execAdcImm c sf rn rd op2 s
  | .adcReg3 c sf rn rd op2 => Sys2Proof.Machine.execAdcReg3 c sf rn rd op2 s
  | .adcReg4 c sf rn rd op2 => Sys2Proof.Machine.execAdcReg4 c sf rn rd op2 s
  | .sbcImm c sf rn rd op2 => Sys2Proof.Machine.execSbcImm c sf rn rd op2 s
  | .sbcReg3 c sf rn rd op2 => Sys2Proof.Machine.execSbcReg3 c sf rn rd op2 s
  | .sbcReg4 c sf rn rd op2 => Sys2Proof.Machine.execSbcReg4 c sf rn rd op2 s
  | .rscImm c sf rn rd op2 => Sys2Proof.Machine.execRscImm c sf rn rd op2 s
  | .rscReg3 c sf rn rd op2 => Sys2Proof.Machine.execRscReg3 c sf rn rd op2 s
  | .rscReg4 c sf rn rd op2 => Sys2Proof.Machine.execRscReg4 c sf rn rd op2 s
  | .tstImm c rn rd op2 => Sys2Proof.Machine.execTstImm c rn rd op2 s
  | .tstReg3 c rn rd op2 => Sys2Proof.Machine.execTstReg3 c rn rd op2 s
  | .tstReg4 c rn rd op2 => Sys2Proof.Machine.execTstReg4 c rn rd op2 s
  | .teqImm c rn rd op2 => Sys2Proof.Machine.execTeqImm c rn rd op2 s
  | .teqReg3 c rn rd op2 => Sys2Proof.Machine.execTeqReg3 c rn rd op2 s
  | .teqReg4 c rn rd op2 => Sys2Proof.Machine.execTeqReg4 c rn rd op2 s
  | .cmpImm c rn rd op2 => Sys2Proof.Machine.execCmpImm c rn rd op2 s
  | .cmpReg3 c rn rd op2 => Sys2Proof.Machine.execCmpReg3 c rn rd op2 s
  | .cmpReg4 c rn rd op2 => Sys2Proof.Machine.execCmpReg4 c rn rd op2 s
  | .cmnImm c rn rd op2 => Sys2Proof.Machine.execCmnImm c rn rd op2 s
  | .cmnReg3 c rn rd op2 => Sys2Proof.Machine.execCmnReg3 c rn rd op2 s
  | .cmnReg4 c rn rd op2 => Sys2Proof.Machine.execCmnReg4 c rn rd op2 s
  | .orrImm c sf rn rd op2 => Sys2Proof.Machine.execOrrImm c sf rn rd op2 s
  | .orrReg3 c sf rn rd op2 => Sys2Proof.Machine.execOrrReg3 c sf rn rd op2 s
  | .orrReg4 c sf rn rd op2 => Sys2Proof.Machine.execOrrReg4 c sf rn rd op2 s
  | .movImm c sf rn rd op2 => Sys2Proof.Machine.execMovImm c sf rn rd op2 s
  | .movReg3 c sf rn rd op2 => Sys2Proof.Machine.execMovReg3 c sf rn rd op2 s
  | .movReg4 c sf rn rd op2 => Sys2Proof.Machine.execMovReg4 c sf rn rd op2 s
  | .bicImm c sf rn rd op2 => Sys2Proof.Machine.execBicImm c sf rn rd op2 s
  | .bicReg3 c sf rn rd op2 => Sys2Proof.Machine.execBicReg3 c sf rn rd op2 s
  | .bicReg4 c sf rn rd op2 => Sys2Proof.Machine.execBicReg4 c sf rn rd op2 s
  | .mvnImm c sf rn rd op2 => Sys2Proof.Machine.execMvnImm c sf rn rd op2 s
  | .mvnReg3 c sf rn rd op2 => Sys2Proof.Machine.execMvnReg3 c sf rn rd op2 s
  | .mvnReg4 c sf rn rd op2 => Sys2Proof.Machine.execMvnReg4 c sf rn rd op2 s
  | .mul c sf rd rn rs rm => Sys2Proof.Machine.execMul c sf rd rn rs rm s
  | .mla c sf rd rn rs rm => Sys2Proof.Machine.execMla c sf rd rn rs rm s
  | .umull c sf rdHi rdLo rs rm => Sys2Proof.Machine.execUmull c sf rdHi rdLo rs rm s
  | .umlal c sf rdHi rdLo rs rm => Sys2Proof.Machine.execUmlal c sf rdHi rdLo rs rm s
  | .smull c sf rdHi rdLo rs rm => Sys2Proof.Machine.execSmull c sf rdHi rdLo rs rm s
  | .smlal c sf rdHi rdLo rs rm => Sys2Proof.Machine.execSmlal c sf rdHi rdLo rs rm s
  | .swp c rn rd rm => Sys2Proof.Machine.execSwp c rn rd rm s
  | .swpb c rn rd rm => Sys2Proof.Machine.execSwpb c rn rd rm s
  | .ldrhReg c ix rn rd rm => Sys2Proof.Machine.execLdrhReg c ix rn rd rm s
  | .ldrhImm c ix rn rd off => Sys2Proof.Machine.execLdrhImm c ix rn rd off s
  | .strhReg c ix rn rd rm => Sys2Proof.Machine.execStrhReg c ix rn rd rm s
  | .strhImm c ix rn rd off => Sys2Proof.Machine.execStrhImm c ix rn rd off s
  | .ldrsbReg c ix rn rd rm => Sys2Proof.Machine.execLdrsbReg c ix rn rd rm s
  | .ldrsbImm c ix rn rd off => Sys2Proof.Machine.execLdrsbImm c ix rn rd off s
  | .ldrshReg c ix rn rd rm => Sys2Proof.Machine.execLdrshReg c ix rn rd rm s
  | .ldrshImm c ix rn rd off => Sys2Proof.Machine.execLdrshImm c ix rn rd off s
  | .bx c rn => Sys2Proof.Machine.execBx c rn s
  | .mrs c ps rd => Sys2Proof.Machine.execMrs c ps rd s
  | .msrReg c pd rm => Sys2Proof.Machine.execMsrReg c pd rm s
  | .msrRegFlags c pd rm => Sys2Proof.Machine.execMsrRegFlags c pd rm s
  | .msrImmFlags c pd op2 => Sys2Proof.Machine.execMsrImmFlags c pd op2 s
  | .ldrImm c ix rn rd off => Sys2Proof.Machine.execLdrImm c ix rn rd off s
  | .ldrReg c ix rn rd off => Sys2Proof.Machine.execLdrReg c ix rn rd off s
  | .strImm c ix rn rd off => Sys2Proof.Machine.execStrImm c ix rn rd off s
  | .strReg c ix rn rd off => Sys2Proof.Machine.execStrReg c ix rn rd off s
  | .ldrbImm c ix rn rd off => Sys2Proof.Machine.execLdrbImm c ix rn rd off s
  | .ldrbReg c ix rn rd off => Sys2Proof.Machine.execLdrbReg c ix rn rd off s
  | .strbImm c ix rn rd off => Sys2Proof.Machine.execStrbImm c ix rn rd off s
  | .strbReg c ix rn rd off => Sys2Proof.Machine.execStrbReg c ix rn rd off s
  | .ldm c ix rn list => Sys2Proof.Machine.execLdm c ix rn list s
  | .stm c ix rn list => Sys2Proof.Machine.execStm c ix rn list s
  | .ldmS c ix rn list => Sys2Proof.Machine.execLdmS c ix rn list s
  | .stmS c ix rn list => Sys2Proof.Machine.execStmS c ix rn list s
  | .b c off => Sys2Proof.Machine.execB c off s
  | .bl c off => Sys2Proof.Machine.execBl c off s

end Sys2Proof.Machine
end

