-- ==== Sys2Proof/Machine/Cycle.lean ====
section
/-! DEFINITION. The instruction cycle (41_conditional_execution.md R183). -/

namespace Sys2Proof.Machine

/-- One step, in the order of R183: the end of the run and the fetch, the condition, the decoder, the instruction. -/
def cycle (s : State) : Result :=
  match s.fetchFault with
  | some f => .fault f
  | none =>
    if condPassed (condOf s.fetchWord) s.flags then
      match decode s.fetchWord with
      | .reserved _ => .fault (.reservedEncoding s.fetchWord)
      | .instr i => exec i s
    else .next s.advance

end Sys2Proof.Machine
end

