-- ==== Sys2Proof/WellFormed.lean ====
section
/-! DEFINITION. The operand combinations the spec gives a meaning: an instruction is well formed when it is none
of the combinations 60_exceptions.md R323 lists as `Unpredictable`. The table is written here from R323 alone; the
machine makes the same checks in its own words (Machine/Operands.lean), and an obligation says that the two agree.
Every term of `Instr` has an encoding, well formed or not, because its fields have the widths of the table. -/

namespace Sys2Proof

/-- None of the registers is R15. -/
def noPc (rs : List Reg) : Bool := rs.all (· != regPC)

/-- Not both S = 1 and Rd = 15 (`SWithPcDest`, 40_data_processing.md R128). -/
def pcDestOk (setFlags : Bool) (rd : Reg) : Bool := !(setFlags && rd == regPC)

/-- The base register is updated: P = 0 or W = 1 (44_data_transfer.md R242). -/
def Indexing.updatesBase (ix : Indexing) : Bool := !ix.p || ix.w

/-- R248 (a) and (b): a base update needs Rn to be neither R15 nor Rd. -/
def baseOk (ix : Indexing) (rn rd : Reg) : Bool := !ix.updatesBase || (rn != regPC && rn != rd)

/-- R248 (c) and (d): an offset register is not R15 and, with a base update, not Rn. -/
def indexOk (ix : Indexing) (rn rm : Reg) : Bool := rm != regPC && (!ix.updatesBase || rm != rn)

/-- R223: Rd is not Rm, and no register MUL uses is R15. -/
def mulOk (rd rs rm : Reg) : Bool := noPc [rd, rs, rm] && rd != rm

/-- R225: RdHi, RdLo and Rm differ, and no register is R15. -/
def longMulOk (rdHi rdLo rs rm : Reg) : Bool :=
  noPc [rdHi, rdLo, rs, rm] && rdHi != rdLo && rdHi != rm && rdLo != rm

/-- R252: no register is R15, and Rn is neither Rd nor Rm. -/
def swapOk (rn rd rm : Reg) : Bool := noPc [rn, rd, rm] && rn != rd && rn != rm

/-- R290 (a), (b) and (c): the list is not empty, Rn is not R15, and with W = 1 Rn is not in the list. -/
def blockOk (ix : Indexing) (rn : Reg) (list : BitVec 16) : Bool :=
  list != 0#16 && rn != regPC && !(ix.w && list.getLsbD rn.toNat)

/-- The operands of the instruction are no combination that R323 calls `Unpredictable`. The Rn field of MOV and MVN
and the Rd field of a compare are ignored and may hold any value (30_encoding.md R106; log 12). The instructions with
S = 1 in a block transfer have no operand rule of their own: they are stopped before it (R329). -/
def Instr.wellFormed : Instr → Bool
  | .andImm _ setFlags _ rd _ | .eorImm _ setFlags _ rd _ | .subImm _ setFlags _ rd _ | .rsbImm _ setFlags _ rd _
  | .addImm _ setFlags _ rd _ | .adcImm _ setFlags _ rd _ | .sbcImm _ setFlags _ rd _ | .rscImm _ setFlags _ rd _
  | .orrImm _ setFlags _ rd _ | .movImm _ setFlags _ rd _ | .bicImm _ setFlags _ rd _ | .mvnImm _ setFlags _ rd _
  | .andReg3 _ setFlags _ rd _ | .eorReg3 _ setFlags _ rd _ | .subReg3 _ setFlags _ rd _ | .rsbReg3 _ setFlags _ rd _
  | .addReg3 _ setFlags _ rd _ | .adcReg3 _ setFlags _ rd _ | .sbcReg3 _ setFlags _ rd _ | .rscReg3 _ setFlags _ rd _
  | .orrReg3 _ setFlags _ rd _ | .movReg3 _ setFlags _ rd _ | .bicReg3 _ setFlags _ rd _ | .mvnReg3 _ setFlags _ rd _ => pcDestOk setFlags rd
  | .tstImm _ _ _ _ | .teqImm _ _ _ _ | .cmpImm _ _ _ _ | .cmnImm _ _ _ _
  | .tstReg3 _ _ _ _ | .teqReg3 _ _ _ _ | .cmpReg3 _ _ _ _ | .cmnReg3 _ _ _ _ => true
  | .andReg4 _ setFlags rn rd o | .eorReg4 _ setFlags rn rd o | .subReg4 _ setFlags rn rd o | .rsbReg4 _ setFlags rn rd o
  | .addReg4 _ setFlags rn rd o | .adcReg4 _ setFlags rn rd o | .sbcReg4 _ setFlags rn rd o | .rscReg4 _ setFlags rn rd o
  | .orrReg4 _ setFlags rn rd o | .bicReg4 _ setFlags rn rd o => noPc [rn, o.rm, o.rs] && pcDestOk setFlags rd
  | .movReg4 _ setFlags _ rd o | .mvnReg4 _ setFlags _ rd o => noPc [o.rm, o.rs] && pcDestOk setFlags rd
  | .tstReg4 _ rn _ o | .teqReg4 _ rn _ o | .cmpReg4 _ rn _ o | .cmnReg4 _ rn _ o => noPc [rn, o.rm, o.rs]
  | .mul _ _ rd _ rs rm => mulOk rd rs rm
  | .mla _ _ rd rn rs rm => mulOk rd rs rm && rn != regPC
  | .umull _ _ rdHi rdLo rs rm | .umlal _ _ rdHi rdLo rs rm => longMulOk rdHi rdLo rs rm
  | .smull _ _ rdHi rdLo rs rm | .smlal _ _ rdHi rdLo rs rm => longMulOk rdHi rdLo rs rm
  | .swp _ rn rd rm | .swpb _ rn rd rm => swapOk rn rd rm
  | .ldrhReg _ ix rn rd rm | .strhReg _ ix rn rd rm | .ldrsbReg _ ix rn rd rm
  | .ldrshReg _ ix rn rd rm => baseOk ix rn rd && indexOk ix rn rm && rd != regPC
  | .ldrhImm _ ix rn rd _ | .strhImm _ ix rn rd _ | .ldrsbImm _ ix rn rd _
  | .ldrshImm _ ix rn rd _ => baseOk ix rn rd && rd != regPC
  | .bx _ _ => true
  | .mrs _ _ rd => rd != regPC
  | .msrReg _ _ rm | .msrRegFlags _ _ rm => rm != regPC
  | .msrImmFlags _ _ _ => true
  | .ldrImm _ ix rn rd _ => baseOk ix rn rd
  | .ldrReg _ ix rn rd o => baseOk ix rn rd && indexOk ix rn o.rm
  | .strImm _ ix rn rd _ | .ldrbImm _ ix rn rd _ | .strbImm _ ix rn rd _ => baseOk ix rn rd && rd != regPC
  | .strReg _ ix rn rd o | .ldrbReg _ ix rn rd o
  | .strbReg _ ix rn rd o => baseOk ix rn rd && indexOk ix rn o.rm && rd != regPC
  | .ldm _ ix rn list => blockOk ix rn list
  | .stm _ ix rn list => blockOk ix rn list && !list.getLsbD 15
  | .ldmS _ _ _ _ | .stmS _ _ _ _ => true
  | .b _ _ | .bl _ _ => true

end Sys2Proof
end

