-- ==== Sys2Proof/Safety.lean ====
section
/-! DEFINITION. What counts as a safe run, and the descriptions of instructions that the claims are stated in: which
feature an instruction needs, which registers it may write, which accesses it makes. They are written from the spec's
tables (10_state.md R23, R29; 20_memory.md R54; 60_exceptions.md R322, R323, R329) and from the syntax alone; the
machine does not call them. -/

namespace Sys2Proof

open Machine

/-! ### Safe outcomes -/

/-- The six model faults of 60_exceptions.md R320; the end of a run is none of them (70_reset_and_hazards.md R353). -/
def Machine.Fault.isModelFault : Fault → Bool
  | .runEnded => false
  | _ => true

/-- A step is safe when it does not end in a model fault or a refusal (R320: "a proof about a program shows that no
fault is reached"). -/
def safeOutcome : Host.Outcome State Fault Refusal → Bool
  | .next _ => true
  | .fault f => !f.isModelFault
  | .refused _ => false

/-- The state invariant: the configuration is legal (00_scope.md R9), memory is in its canonical form, and every listed
byte lies in `[MEM_BASE, MEM_BASE + MEM_SIZE)` (20_memory.md R50). -/
abbrev Machine.State.Inv (s : State) : Prop :=
  s.cfg.Legal ∧ s.mem.wf ∧
    ∀ c ∈ s.mem, s.cfg.memBase.toNat ≤ c.1 ∧ c.1 < s.cfg.memBase.toNat + s.cfg.memSize

/-! ### What an instruction needs -/

/-- The operand is RRX: LA = 11 with amount field 0 (40_data_processing.md R121). -/
def ShiftedReg.isRrx (o : ShiftedReg) : Bool := o.kind == .ror && o.amount == 0#5

/-- The feature an instruction is stopped for, if any, in the order of 60_exceptions.md R329 steps 6 and 7 (R322). -/
def Instr.missingFeature (c : Config) : Instr → Option Feature
  | .andReg3 _ _ _ _ o | .eorReg3 _ _ _ _ o | .subReg3 _ _ _ _ o | .rsbReg3 _ _ _ _ o
  | .addReg3 _ _ _ _ o | .adcReg3 _ _ _ _ o | .sbcReg3 _ _ _ _ o | .rscReg3 _ _ _ _ o
  | .orrReg3 _ _ _ _ o | .movReg3 _ _ _ _ o | .bicReg3 _ _ _ _ o | .mvnReg3 _ _ _ _ o
  | .tstReg3 _ _ _ o | .teqReg3 _ _ _ o | .cmpReg3 _ _ _ o | .cmnReg3 _ _ _ o
  | .ldrReg _ _ _ _ o | .strReg _ _ _ _ o | .ldrbReg _ _ _ _ o | .strbReg _ _ _ _ o =>
    if o.isRrx && !c.admitRrx then some .rrx else none
  | .umull _ _ _ _ _ _ | .umlal _ _ _ _ _ _ | .smull _ _ _ _ _ _ | .smlal _ _ _ _ _ _ => if c.admitLongMul then none else some .longMultiply
  | .swpb _ _ _ _ => if c.admitSwpb then none else some .swpb
  | .ldrhReg _ _ _ _ _ | .ldrhImm _ _ _ _ _ | .strhReg _ _ _ _ _ | .strhImm _ _ _ _ _
  | .ldrsbReg _ _ _ _ _ | .ldrsbImm _ _ _ _ _ | .ldrshReg _ _ _ _ _ | .ldrshImm _ _ _ _ _ =>
    if c.admitHalfword then none else some .halfword
  | .mrs _ bit22 _ | .msrReg _ bit22 _ | .msrRegFlags _ bit22 _ | .msrImmFlags _ bit22 _ =>
    if !c.admitPsr then some .psr else if bit22 then some .spsr else none
  | .ldmS _ _ _ _ | .stmS _ _ _ _ => some .blockS
  | .andImm _ _ _ _ _ | .eorImm _ _ _ _ _ | .subImm _ _ _ _ _ | .rsbImm _ _ _ _ _
  | .addImm _ _ _ _ _ | .adcImm _ _ _ _ _ | .sbcImm _ _ _ _ _ | .rscImm _ _ _ _ _
  | .orrImm _ _ _ _ _ | .movImm _ _ _ _ _ | .bicImm _ _ _ _ _ | .mvnImm _ _ _ _ _
  | .andReg4 _ _ _ _ _ | .eorReg4 _ _ _ _ _ | .subReg4 _ _ _ _ _ | .rsbReg4 _ _ _ _ _
  | .addReg4 _ _ _ _ _ | .adcReg4 _ _ _ _ _ | .sbcReg4 _ _ _ _ _ | .rscReg4 _ _ _ _ _
  | .orrReg4 _ _ _ _ _ | .movReg4 _ _ _ _ _ | .bicReg4 _ _ _ _ _ | .mvnReg4 _ _ _ _ _
  | .tstImm _ _ _ _ | .teqImm _ _ _ _ | .cmpImm _ _ _ _ | .cmnImm _ _ _ _
  | .tstReg4 _ _ _ _ | .teqReg4 _ _ _ _ | .cmpReg4 _ _ _ _ | .cmnReg4 _ _ _ _
  | .mul _ _ _ _ _ _ | .mla _ _ _ _ _ _ | .swp _ _ _ _ | .bx _ _
  | .ldrImm _ _ _ _ _ | .strImm _ _ _ _ _ | .ldrbImm _ _ _ _ _ | .strbImm _ _ _ _ _
  | .ldm _ _ _ _ | .stm _ _ _ _ | .b _ _ | .bl _ _ =>
    none

/-- The reason an ill-formed instruction is stopped for (60_exceptions.md R323). In the form reg4 the check of R15 comes
before the check of S with Rd = 15 (R329 steps 7 and 8); `none` where R323 has no reason for the instruction. -/
def Instr.unpredictableReason : Instr → Option Reason
  | .andImm _ _ _ _ _ | .eorImm _ _ _ _ _ | .subImm _ _ _ _ _ | .rsbImm _ _ _ _ _
  | .addImm _ _ _ _ _ | .adcImm _ _ _ _ _ | .sbcImm _ _ _ _ _ | .rscImm _ _ _ _ _
  | .orrImm _ _ _ _ _ | .movImm _ _ _ _ _ | .bicImm _ _ _ _ _ | .mvnImm _ _ _ _ _
  | .andReg3 _ _ _ _ _ | .eorReg3 _ _ _ _ _ | .subReg3 _ _ _ _ _ | .rsbReg3 _ _ _ _ _
  | .addReg3 _ _ _ _ _ | .adcReg3 _ _ _ _ _ | .sbcReg3 _ _ _ _ _ | .rscReg3 _ _ _ _ _
  | .orrReg3 _ _ _ _ _ | .movReg3 _ _ _ _ _ | .bicReg3 _ _ _ _ _ | .mvnReg3 _ _ _ _ _ =>
    some .sWithPcDest
  | .andReg4 _ _ rn _ o | .eorReg4 _ _ rn _ o | .subReg4 _ _ rn _ o | .rsbReg4 _ _ rn _ o
  | .addReg4 _ _ rn _ o | .adcReg4 _ _ rn _ o | .sbcReg4 _ _ rn _ o | .rscReg4 _ _ rn _ o
  | .orrReg4 _ _ rn _ o | .bicReg4 _ _ rn _ o =>
    if noPc [rn, o.rm, o.rs] then some .sWithPcDest else some .r15InReg4
  | .movReg4 _ _ _ _ o | .mvnReg4 _ _ _ _ o => if noPc [o.rm, o.rs] then some .sWithPcDest else some .r15InReg4
  | .tstReg4 _ _ _ _ | .teqReg4 _ _ _ _ | .cmpReg4 _ _ _ _ | .cmnReg4 _ _ _ _ => some .r15InReg4
  | .mul _ _ _ _ _ _ | .mla _ _ _ _ _ _ | .umull _ _ _ _ _ _ | .umlal _ _ _ _ _ _
  | .smull _ _ _ _ _ _ | .smlal _ _ _ _ _ _ =>
    some .mulOperands
  | .swp _ _ _ _ | .swpb _ _ _ _ => some .swapOperands
  | .ldrhReg _ _ _ _ _ | .ldrhImm _ _ _ _ _ | .strhReg _ _ _ _ _ | .strhImm _ _ _ _ _
  | .ldrsbReg _ _ _ _ _ | .ldrsbImm _ _ _ _ _ | .ldrshReg _ _ _ _ _ | .ldrshImm _ _ _ _ _
  | .ldrReg _ _ _ _ _ | .ldrImm _ _ _ _ _ | .strReg _ _ _ _ _ | .strImm _ _ _ _ _
  | .ldrbReg _ _ _ _ _ | .ldrbImm _ _ _ _ _ | .strbReg _ _ _ _ _ | .strbImm _ _ _ _ _ =>
    some .transferOperands
  | .ldm _ _ _ _ | .stm _ _ _ _ => some .blockOperands
  | .mrs _ _ _ | .msrReg _ _ _ | .msrRegFlags _ _ _ => some .psrOperands
  | .tstImm _ _ _ _ | .teqImm _ _ _ _ | .cmpImm _ _ _ _ | .cmnImm _ _ _ _
  | .tstReg3 _ _ _ _ | .teqReg3 _ _ _ _ | .cmpReg3 _ _ _ _ | .cmnReg3 _ _ _ _
  | .bx _ _ | .msrImmFlags _ _ _ | .ldmS _ _ _ _ | .stmS _ _ _ _
  | .b _ _ | .bl _ _ =>
    none

/-! ### What an instruction writes -/

/-- Rn when the base is updated (44_data_transfer.md R242). -/
def Indexing.baseDestination (ix : Indexing) (rn : Reg) : List Reg := if ix.updatesBase then [rn] else []

/-- The registers an instruction writes, R15 among them when it writes the pc (10_state.md R23). -/
def Instr.destinations : Instr → List Reg
  | .andImm _ _ _ rd _ | .eorImm _ _ _ rd _ | .subImm _ _ _ rd _ | .rsbImm _ _ _ rd _
  | .addImm _ _ _ rd _ | .adcImm _ _ _ rd _ | .sbcImm _ _ _ rd _ | .rscImm _ _ _ rd _
  | .orrImm _ _ _ rd _ | .movImm _ _ _ rd _ | .bicImm _ _ _ rd _ | .mvnImm _ _ _ rd _
  | .andReg3 _ _ _ rd _ | .eorReg3 _ _ _ rd _ | .subReg3 _ _ _ rd _ | .rsbReg3 _ _ _ rd _
  | .addReg3 _ _ _ rd _ | .adcReg3 _ _ _ rd _ | .sbcReg3 _ _ _ rd _ | .rscReg3 _ _ _ rd _
  | .orrReg3 _ _ _ rd _ | .movReg3 _ _ _ rd _ | .bicReg3 _ _ _ rd _ | .mvnReg3 _ _ _ rd _
  | .andReg4 _ _ _ rd _ | .eorReg4 _ _ _ rd _ | .subReg4 _ _ _ rd _ | .rsbReg4 _ _ _ rd _
  | .addReg4 _ _ _ rd _ | .adcReg4 _ _ _ rd _ | .sbcReg4 _ _ _ rd _ | .rscReg4 _ _ _ rd _
  | .orrReg4 _ _ _ rd _ | .movReg4 _ _ _ rd _ | .bicReg4 _ _ _ rd _ | .mvnReg4 _ _ _ rd _ =>
    [rd]
  | .tstImm _ _ _ _ | .teqImm _ _ _ _ | .cmpImm _ _ _ _ | .cmnImm _ _ _ _
  | .tstReg3 _ _ _ _ | .teqReg3 _ _ _ _ | .cmpReg3 _ _ _ _ | .cmnReg3 _ _ _ _
  | .tstReg4 _ _ _ _ | .teqReg4 _ _ _ _ | .cmpReg4 _ _ _ _ | .cmnReg4 _ _ _ _ =>
    []
  | .mul _ _ rd _ _ _ | .mla _ _ rd _ _ _ => [rd]
  | .umull _ _ rdHi rdLo _ _ | .umlal _ _ rdHi rdLo _ _ | .smull _ _ rdHi rdLo _ _ | .smlal _ _ rdHi rdLo _ _ =>
    [rdHi, rdLo]
  | .swp _ _ rd _ | .swpb _ _ rd _ => [rd]
  | .ldrhReg _ ix rn rd _ | .ldrhImm _ ix rn rd _ | .ldrsbReg _ ix rn rd _ | .ldrsbImm _ ix rn rd _
  | .ldrshReg _ ix rn rd _ | .ldrshImm _ ix rn rd _ | .ldrReg _ ix rn rd _ | .ldrImm _ ix rn rd _
  | .ldrbReg _ ix rn rd _ | .ldrbImm _ ix rn rd _ =>
    rd :: ix.baseDestination rn
  | .strhReg _ ix rn _ _ | .strhImm _ ix rn _ _ | .strReg _ ix rn _ _ | .strImm _ ix rn _ _
  | .strbReg _ ix rn _ _ | .strbImm _ ix rn _ _ =>
    ix.baseDestination rn
  | .ldm _ ix rn list => (if ix.w then [rn] else []) ++ registersOf list
  | .stm _ ix rn _ => if ix.w then [rn] else []
  | .ldmS _ _ _ _ | .stmS _ _ _ _ => []
  | .mrs _ _ rd => [rd]
  | .msrReg _ _ _ | .msrRegFlags _ _ _ | .msrImmFlags _ _ _ => []
  | .bx _ _ | .b _ _ => [regPC]
  | .bl _ _ => [regLR, regPC]

/-- The instruction is a flag-setting multiply, which takes a draw of `MUL_C` (43_multiply.md R222, R226). -/
def Instr.drawsCarry : Instr → Bool
  | .mul _ s _ _ _ _ | .mla _ s _ _ _ _ | .umull _ s _ _ _ _ | .umlal _ s _ _ _ _ => s
  | .smull _ s _ _ _ _ | .smlal _ s _ _ _ _ => s
  | _ => false

/-- The instruction writes flags when it executes (10_state.md R29). -/
def Instr.writesFlags : Instr → Bool
  | .andImm _ s _ _ _ | .eorImm _ s _ _ _ | .subImm _ s _ _ _ | .rsbImm _ s _ _ _
  | .addImm _ s _ _ _ | .adcImm _ s _ _ _ | .sbcImm _ s _ _ _ | .rscImm _ s _ _ _
  | .orrImm _ s _ _ _ | .movImm _ s _ _ _ | .bicImm _ s _ _ _ | .mvnImm _ s _ _ _
  | .andReg3 _ s _ _ _ | .eorReg3 _ s _ _ _ | .subReg3 _ s _ _ _ | .rsbReg3 _ s _ _ _
  | .addReg3 _ s _ _ _ | .adcReg3 _ s _ _ _ | .sbcReg3 _ s _ _ _ | .rscReg3 _ s _ _ _
  | .orrReg3 _ s _ _ _ | .movReg3 _ s _ _ _ | .bicReg3 _ s _ _ _ | .mvnReg3 _ s _ _ _
  | .andReg4 _ s _ _ _ | .eorReg4 _ s _ _ _ | .subReg4 _ s _ _ _ | .rsbReg4 _ s _ _ _
  | .addReg4 _ s _ _ _ | .adcReg4 _ s _ _ _ | .sbcReg4 _ s _ _ _ | .rscReg4 _ s _ _ _
  | .orrReg4 _ s _ _ _ | .movReg4 _ s _ _ _ | .bicReg4 _ s _ _ _ | .mvnReg4 _ s _ _ _ =>
    s
  | .tstImm _ _ _ _ | .teqImm _ _ _ _ | .cmpImm _ _ _ _ | .cmnImm _ _ _ _
  | .tstReg3 _ _ _ _ | .teqReg3 _ _ _ _ | .cmpReg3 _ _ _ _ | .cmnReg3 _ _ _ _
  | .tstReg4 _ _ _ _ | .teqReg4 _ _ _ _ | .cmpReg4 _ _ _ _ | .cmnReg4 _ _ _ _ =>
    true
  | .msrReg _ _ _ | .msrRegFlags _ _ _ | .msrImmFlags _ _ _ => true
  | i => i.drawsCarry

/-! ### The data accesses of an instruction -/

/-- A data access: its address and its width in bytes. -/
abbrev Access := Word × Nat

/-- The word accesses of a block transfer: `n` words at `start`, `start + 4`, … (45_block_transfer.md R285). -/
def blockAccesses (start : Word) (n : Nat) : List Access :=
  (List.range n).map (fun k => (start + BitVec.ofNat 32 (4 * k), 4))

/-- The data accesses of an instruction, in ascending order of address (20_memory.md R54); the addresses are computed
with the functions the meanings use (44_data_transfer.md R242, R252; 45_block_transfer.md R285). SWP reads and writes
one address and is listed once. -/
def Instr.accesses (s : State) : Instr → List Access
  | .ldrImm _ ix rn _ off => [(s.transferAddress ix rn (offsetImm off), 4)]
  | .ldrReg _ ix rn _ o => [(s.transferAddress ix rn (s.offsetReg o), 4)]
  | .strImm _ ix rn _ off => [(s.transferAddress ix rn (offsetImm off), 4)]
  | .strReg _ ix rn _ o => [(s.transferAddress ix rn (s.offsetReg o), 4)]
  | .ldrbImm _ ix rn _ off => [(s.transferAddress ix rn (offsetImm off), 1)]
  | .ldrbReg _ ix rn _ o => [(s.transferAddress ix rn (s.offsetReg o), 1)]
  | .strbImm _ ix rn _ off => [(s.transferAddress ix rn (offsetImm off), 1)]
  | .strbReg _ ix rn _ o => [(s.transferAddress ix rn (s.offsetReg o), 1)]
  | .ldrhImm _ ix rn _ off => [(s.transferAddress ix rn (offsetImm8 off), 2)]
  | .ldrhReg _ ix rn _ rm => [(s.transferAddress ix rn (s.reg rm), 2)]
  | .strhImm _ ix rn _ off => [(s.transferAddress ix rn (offsetImm8 off), 2)]
  | .strhReg _ ix rn _ rm => [(s.transferAddress ix rn (s.reg rm), 2)]
  | .ldrsbImm _ ix rn _ off => [(s.transferAddress ix rn (offsetImm8 off), 1)]
  | .ldrsbReg _ ix rn _ rm => [(s.transferAddress ix rn (s.reg rm), 1)]
  | .ldrshImm _ ix rn _ off => [(s.transferAddress ix rn (offsetImm8 off), 2)]
  | .ldrshReg _ ix rn _ rm => [(s.transferAddress ix rn (s.reg rm), 2)]
  | .swp _ rn _ _ => [(s.reg rn, 4)]
  | .swpb _ rn _ _ => [(s.reg rn, 1)]
  | .ldm _ ix rn list | .stm _ ix rn list => blockAccesses (s.blockStart ix rn list) (registersOf list).length
  | _ => []

/-- The instruction writes memory: STR, STRB, STRH, SWP, SWPB and STM (10_state.md R23; 20_memory.md R54). -/
def Instr.storesMemory : Instr → Bool
  | .strImm _ _ _ _ _ | .strReg _ _ _ _ _ | .strbImm _ _ _ _ _ | .strbReg _ _ _ _ _
  | .strhImm _ _ _ _ _ | .strhReg _ _ _ _ _ | .swp _ _ _ _ | .swpb _ _ _ _
  | .stm _ _ _ _ =>
    true
  | _ => false

/-- Byte `a` is among the bytes of an access. -/
abbrev Access.covers (x : Access) (a : Nat) : Prop := x.1.toNat ≤ a ∧ a < x.1.toNat + x.2

/-- The bytes an instruction stores to when it executes in `s`. -/
abbrev Instr.storesTo (i : Instr) (s : State) (a : Nat) : Prop :=
  i.storesMemory = true ∧ ∃ x ∈ i.accesses s, Access.covers x a

/-- An access is aligned and inside memory (20_memory.md R52, R56). -/
abbrev Access.allowed (c : Config) (x : Access) : Prop :=
  x.1.toNat % x.2 = 0 ∧ c.memBase.toNat ≤ x.1.toNat ∧ x.1.toNat + x.2 ≤ c.memBase.toNat + c.memSize

end Sys2Proof
end

