-- ==== Sys2Proof/Certificates/Slice0/Obligations.lean ====
section
/-! DEFINITION. The statements for the provers. `Claims.…` are the words the statements are written in; each
statement is a `def Obligations.<Name> : Prop`. -/

open Sys2Proof Sys2Proof.Machine

namespace Sys2Proof.Claims

/-! ### Words of the statements -/

/-- The mask and the match of an instruction's row of spec/opcode_table.json. -/
def tableRow : Instr → Word × Word
  | .andImm _ _ _ _ _ => (0x0FE00000#32, 0x02000000#32)
  | .andReg3 _ _ _ _ _ => (0x0FE00010#32, 0x00000000#32)
  | .andReg4 _ _ _ _ _ => (0x0FE00090#32, 0x00000010#32)
  | .eorImm _ _ _ _ _ => (0x0FE00000#32, 0x02200000#32)
  | .eorReg3 _ _ _ _ _ => (0x0FE00010#32, 0x00200000#32)
  | .eorReg4 _ _ _ _ _ => (0x0FE00090#32, 0x00200010#32)
  | .subImm _ _ _ _ _ => (0x0FE00000#32, 0x02400000#32)
  | .subReg3 _ _ _ _ _ => (0x0FE00010#32, 0x00400000#32)
  | .subReg4 _ _ _ _ _ => (0x0FE00090#32, 0x00400010#32)
  | .rsbImm _ _ _ _ _ => (0x0FE00000#32, 0x02600000#32)
  | .rsbReg3 _ _ _ _ _ => (0x0FE00010#32, 0x00600000#32)
  | .rsbReg4 _ _ _ _ _ => (0x0FE00090#32, 0x00600010#32)
  | .addImm _ _ _ _ _ => (0x0FE00000#32, 0x02800000#32)
  | .addReg3 _ _ _ _ _ => (0x0FE00010#32, 0x00800000#32)
  | .addReg4 _ _ _ _ _ => (0x0FE00090#32, 0x00800010#32)
  | .adcImm _ _ _ _ _ => (0x0FE00000#32, 0x02A00000#32)
  | .adcReg3 _ _ _ _ _ => (0x0FE00010#32, 0x00A00000#32)
  | .adcReg4 _ _ _ _ _ => (0x0FE00090#32, 0x00A00010#32)
  | .sbcImm _ _ _ _ _ => (0x0FE00000#32, 0x02C00000#32)
  | .sbcReg3 _ _ _ _ _ => (0x0FE00010#32, 0x00C00000#32)
  | .sbcReg4 _ _ _ _ _ => (0x0FE00090#32, 0x00C00010#32)
  | .rscImm _ _ _ _ _ => (0x0FE00000#32, 0x02E00000#32)
  | .rscReg3 _ _ _ _ _ => (0x0FE00010#32, 0x00E00000#32)
  | .rscReg4 _ _ _ _ _ => (0x0FE00090#32, 0x00E00010#32)
  | .tstImm _ _ _ _ => (0x0FF00000#32, 0x03100000#32)
  | .tstReg3 _ _ _ _ => (0x0FF00010#32, 0x01100000#32)
  | .tstReg4 _ _ _ _ => (0x0FF00090#32, 0x01100010#32)
  | .teqImm _ _ _ _ => (0x0FF00000#32, 0x03300000#32)
  | .teqReg3 _ _ _ _ => (0x0FF00010#32, 0x01300000#32)
  | .teqReg4 _ _ _ _ => (0x0FF00090#32, 0x01300010#32)
  | .cmpImm _ _ _ _ => (0x0FF00000#32, 0x03500000#32)
  | .cmpReg3 _ _ _ _ => (0x0FF00010#32, 0x01500000#32)
  | .cmpReg4 _ _ _ _ => (0x0FF00090#32, 0x01500010#32)
  | .cmnImm _ _ _ _ => (0x0FF00000#32, 0x03700000#32)
  | .cmnReg3 _ _ _ _ => (0x0FF00010#32, 0x01700000#32)
  | .cmnReg4 _ _ _ _ => (0x0FF00090#32, 0x01700010#32)
  | .orrImm _ _ _ _ _ => (0x0FE00000#32, 0x03800000#32)
  | .orrReg3 _ _ _ _ _ => (0x0FE00010#32, 0x01800000#32)
  | .orrReg4 _ _ _ _ _ => (0x0FE00090#32, 0x01800010#32)
  | .movImm _ _ _ _ _ => (0x0FE00000#32, 0x03A00000#32)
  | .movReg3 _ _ _ _ _ => (0x0FE00010#32, 0x01A00000#32)
  | .movReg4 _ _ _ _ _ => (0x0FE00090#32, 0x01A00010#32)
  | .bicImm _ _ _ _ _ => (0x0FE00000#32, 0x03C00000#32)
  | .bicReg3 _ _ _ _ _ => (0x0FE00010#32, 0x01C00000#32)
  | .bicReg4 _ _ _ _ _ => (0x0FE00090#32, 0x01C00010#32)
  | .mvnImm _ _ _ _ _ => (0x0FE00000#32, 0x03E00000#32)
  | .mvnReg3 _ _ _ _ _ => (0x0FE00010#32, 0x01E00000#32)
  | .mvnReg4 _ _ _ _ _ => (0x0FE00090#32, 0x01E00010#32)
  | .mul _ _ _ _ _ _ => (0x0FE000F0#32, 0x00000090#32)
  | .mla _ _ _ _ _ _ => (0x0FE000F0#32, 0x00200090#32)
  | .umull _ _ _ _ _ _ => (0x0FE000F0#32, 0x00800090#32)
  | .umlal _ _ _ _ _ _ => (0x0FE000F0#32, 0x00A00090#32)
  | .smull _ _ _ _ _ _ => (0x0FE000F0#32, 0x00C00090#32)
  | .smlal _ _ _ _ _ _ => (0x0FE000F0#32, 0x00E00090#32)
  | .swp _ _ _ _ => (0x0FF00FF0#32, 0x01000090#32)
  | .swpb _ _ _ _ => (0x0FF00FF0#32, 0x01400090#32)
  | .ldrhReg _ _ _ _ _ => (0x0E500FF0#32, 0x001000B0#32)
  | .ldrhImm _ _ _ _ _ => (0x0E5000F0#32, 0x005000B0#32)
  | .strhReg _ _ _ _ _ => (0x0E500FF0#32, 0x000000B0#32)
  | .strhImm _ _ _ _ _ => (0x0E5000F0#32, 0x004000B0#32)
  | .ldrsbReg _ _ _ _ _ => (0x0E500FF0#32, 0x001000D0#32)
  | .ldrsbImm _ _ _ _ _ => (0x0E5000F0#32, 0x005000D0#32)
  | .ldrshReg _ _ _ _ _ => (0x0E500FF0#32, 0x001000F0#32)
  | .ldrshImm _ _ _ _ _ => (0x0E5000F0#32, 0x005000F0#32)
  | .bx _ _ => (0x0FFFFFF0#32, 0x012FFF10#32)
  | .mrs _ _ _ => (0x0FBF0FFF#32, 0x010F0000#32)
  | .msrReg _ _ _ => (0x0FBFFFF0#32, 0x0129F000#32)
  | .msrRegFlags _ _ _ => (0x0FBFFFF0#32, 0x0128F000#32)
  | .msrImmFlags _ _ _ => (0x0FBFF000#32, 0x0328F000#32)
  | .ldrImm _ _ _ _ _ => (0x0E500000#32, 0x04100000#32)
  | .ldrReg _ _ _ _ _ => (0x0E500010#32, 0x06100000#32)
  | .strImm _ _ _ _ _ => (0x0E500000#32, 0x04000000#32)
  | .strReg _ _ _ _ _ => (0x0E500010#32, 0x06000000#32)
  | .ldrbImm _ _ _ _ _ => (0x0E500000#32, 0x04500000#32)
  | .ldrbReg _ _ _ _ _ => (0x0E500010#32, 0x06500000#32)
  | .strbImm _ _ _ _ _ => (0x0E500000#32, 0x04400000#32)
  | .strbReg _ _ _ _ _ => (0x0E500010#32, 0x06400000#32)
  | .ldm _ _ _ _ => (0x0E500000#32, 0x08100000#32)
  | .stm _ _ _ _ => (0x0E500000#32, 0x08000000#32)
  | .ldmS _ _ _ _ => (0x0E500000#32, 0x08500000#32)
  | .stmS _ _ _ _ => (0x0E500000#32, 0x08400000#32)
  | .b _ _ => (0x0F000000#32, 0x0A000000#32)
  | .bl _ _ => (0x0F000000#32, 0x0B000000#32)

/-- The words 30_encoding.md R100, R101, R102 and R104 reserve, with the masks of R95 to R97 as they stand there. -/
abbrev reservedWord (w : Word) : Prop :=
  let cls := w.extractLsb' 25 3
  let sh := w.extractLsb' 5 2
  let extension := cls = 0b000#3 ∧ w.getLsbD 7 = true ∧ w.getLsbD 4 = true
  cls = 0b110#3 ∨ cls = 0b111#3 ∨
    (cls = 0b011#3 ∧ w.getLsbD 4 = true) ∨
    (extension ∧
      ((sh = 0b00#2 ∧ w.getLsbD 24 = false ∧ w.getLsbD 23 = false ∧ w.getLsbD 22 = true) ∨
        (sh = 0b00#2 ∧ w.getLsbD 24 = true ∧
          (w.getLsbD 23 = true ∨ w.getLsbD 21 = true ∨ w.getLsbD 20 = true ∨ w.extractLsb' 8 4 ≠ 0#4)) ∨
        ((sh = 0b10#2 ∨ sh = 0b11#2) ∧ w.getLsbD 20 = false) ∨
        (sh ≠ 0b00#2 ∧ w.getLsbD 22 = false ∧ w.extractLsb' 8 4 ≠ 0#4))) ∨
    (((cls = 0b000#3 ∧ ¬extension) ∨ cls = 0b001#3) ∧ w.extractLsb' 23 2 = 0b10#2 ∧ w.getLsbD 20 = false ∧
      w &&& 0x0FFFFFF0#32 ≠ 0x012FFF10#32 ∧ w &&& 0x0FBF0FFF#32 ≠ 0x010F0000#32 ∧
      w &&& 0x0FBFFFF0#32 ≠ 0x0129F000#32 ∧ w &&& 0x0FBFFFF0#32 ≠ 0x0128F000#32 ∧
      w &&& 0x0FBFF000#32 ≠ 0x0328F000#32)

/-- Nothing but registers and the pc differs: flags, memory, configuration and draws are as before. -/
def SameButRegisters (s t : State) : Prop :=
  t.flags = s.flags ∧ (∀ a, t.mem.read a = s.mem.read a) ∧ t.cfg = s.cfg ∧ t.mulDraws = s.mulDraws

/-- `t` is `s` after an instruction that wrote `v` to Rd (the pc when Rd is R15), left the flags at `f`, and changed
nothing else but the pc. -/
def Wrote (s t : State) (rd : Reg) (v : Word) (f : Flags) : Prop :=
  t.pc = (if rd = regPC then v else s.pc + 4#32) ∧ (rd ≠ regPC → t.reg rd = v) ∧
    (∀ r, r ≠ regPC → r ≠ rd → t.reg r = s.reg r) ∧ t.flags = f ∧
    (∀ a, t.mem.read a = s.mem.read a) ∧ t.cfg = s.cfg ∧ t.mulDraws = s.mulDraws

/-- `t` is `s` after an instruction that left the flags at `f` and changed nothing else but the pc. -/
def WroteFlags (s t : State) (f : Flags) : Prop :=
  t.pc = s.pc + 4#32 ∧ (∀ r, r ≠ regPC → t.reg r = s.reg r) ∧ t.flags = f ∧
    (∀ a, t.mem.read a = s.mem.read a) ∧ t.cfg = s.cfg ∧ t.mulDraws = s.mulDraws

/-- The three forms of an instruction that writes Rd complete for every operand their checks admit, with the given
result; `usesRn` is false for MOV and MVN, whose Rn is ignored. -/
def ThreeForms (imm : Cond → Bool → Reg → Reg → RotImm → Instr) (reg3 : Cond → Bool → Reg → Reg → ShiftedReg → Instr)
    (reg4 : Cond → Bool → Reg → Reg → RegShiftedReg → Instr) (usesRn : Bool)
    (result : Flags → Word → Shifted → AluResult) : Prop :=
  ∀ (s : State) (c : Cond) (sf : Bool) (rn rd : Reg), condPassed c s.flags = true → ¬(sf = true ∧ rd = regPC) →
    (∀ o, ∃ t, exec (imm c sf rn rd o) s = .next t ∧
      Wrote s t rd (result s.flags (s.reg rn) (s.op2Imm o)).value
        (if sf then (result s.flags (s.reg rn) (s.op2Imm o)).flags else s.flags)) ∧
    (∀ o, (o.isRrx = true → s.cfg.admitRrx = true) → ∃ t, exec (reg3 c sf rn rd o) s = .next t ∧
      Wrote s t rd (result s.flags (s.reg rn) (s.op2Reg3 o)).value
        (if sf then (result s.flags (s.reg rn) (s.op2Reg3 o)).flags else s.flags)) ∧
    (∀ o, (usesRn = true → rn ≠ regPC) → o.rm ≠ regPC → o.rs ≠ regPC → ∃ t, exec (reg4 c sf rn rd o) s = .next t ∧
      Wrote s t rd (result s.flags (s.reg rn) (s.op2Reg4 o)).value
        (if sf then (result s.flags (s.reg rn) (s.op2Reg4 o)).flags else s.flags))

/-- The three forms of a compare complete for every operand their checks admit, with the given flags. -/
def CompareForms (imm : Cond → Reg → Reg → RotImm → Instr) (reg3 : Cond → Reg → Reg → ShiftedReg → Instr)
    (reg4 : Cond → Reg → Reg → RegShiftedReg → Instr) (result : Flags → Word → Shifted → AluResult) : Prop :=
  ∀ (s : State) (c : Cond) (rn rd : Reg), condPassed c s.flags = true →
    (∀ o, ∃ t, exec (imm c rn rd o) s = .next t ∧
      WroteFlags s t (result s.flags (s.reg rn) (s.op2Imm o)).flags) ∧
    (∀ o, (o.isRrx = true → s.cfg.admitRrx = true) → ∃ t, exec (reg3 c rn rd o) s = .next t ∧
      WroteFlags s t (result s.flags (s.reg rn) (s.op2Reg3 o)).flags) ∧
    (∀ o, rn ≠ regPC → o.rm ≠ regPC → o.rs ≠ regPC → ∃ t, exec (reg4 c rn rd o) s = .next t ∧
      WroteFlags s t (result s.flags (s.reg rn) (s.op2Reg4 o)).flags)

/-- The logical group (40_data_processing.md R125): N and Z from the value, C the shifter's carry-out, V unchanged. -/
def logical (f : Flags) (v : Word) (o : Shifted) : AluResult :=
  ⟨v, ⟨v.getLsbD 31, decide (v.toNat = 0), o.carry, f.v⟩⟩

/-- An integer is the signed reading of some 32-bit word. -/
def fitsSigned (x : Int) : Bool := decide (-2 ^ 31 ≤ x ∧ x < 2 ^ 31)

/-- The sum of two words and a carry in unbounded integers (R124, R126): C when the unsigned sum reaches 2^32, V when
the signed sum is no 32-bit number. -/
def sum (a b : Word) (cin : Nat) : AluResult :=
  let v := BitVec.ofNat 32 (a.toNat + b.toNat + cin)
  ⟨v, ⟨v.getLsbD 31, decide (v.toNat = 0), decide (2 ^ 32 ≤ a.toNat + b.toNat + cin),
    !fitsSigned (a.toInt + b.toInt + cin)⟩⟩

/-- The difference of two words less a borrow in unbounded integers (R124, R126): C when nothing is borrowed, V when
the signed difference is no 32-bit number. -/
def difference (a b : Word) (borrow : Nat) : AluResult :=
  let v := BitVec.ofInt 32 ((a.toNat : Int) - b.toNat - borrow)
  ⟨v, ⟨v.getLsbD 31, decide (v.toNat = 0), decide (b.toNat + borrow ≤ a.toNat),
    !fitsSigned (a.toInt - b.toInt - borrow)⟩⟩

/-- `!carry`: 1 when C is clear (40_data_processing.md R137). -/
def borrowOf (f : Flags) : Nat := if f.c then 0 else 1

/-- `MemRead(a, n)` as a number: the sum of mem[a+k] * 2^(8k) (20_memory.md R51). -/
def bytesAt (m : Memory) (a : Nat) : Nat → Nat
  | 0 => 0
  | n + 1 => bytesAt m a n + (m.read (a + n)).toNat * 2 ^ (8 * n)

/-- Byte `k` of a word as R51 counts it: bits 8k + 7 to 8k. -/
def byteAt (v : Word) (k : Nat) : Byte := BitVec.ofNat 8 (v.toNat / 2 ^ (8 * k))

/-- A load completes: Rd holds `value` (the pc when Rd is R15), the base is updated as R242 says, and nothing else
changes but the pc. -/
def LoadCompletes (i : Instr) (s : State) (ix : Indexing) (rn rd : Reg) (off : Word) (n : Nat)
    (value : Memory → Nat → Word) : Prop :=
  condPassed i.cond s.flags = true → i.wellFormed = true → i.missingFeature s.cfg = none →
    Access.allowed s.cfg (s.transferAddress ix rn off, n) →
    ∃ t, exec i s = .next t ∧
      t.pc = (if rd = regPC then value s.mem (s.transferAddress ix rn off).toNat else s.pc + 4#32) ∧
      (rd ≠ regPC → t.reg rd = value s.mem (s.transferAddress ix rn off).toNat) ∧
      (ix.p = false ∨ ix.w = true → t.reg rn = if ix.u then s.reg rn + off else s.reg rn - off) ∧
      (∀ r, r ≠ regPC → r ≠ rd → (ix.p = false ∨ ix.w = true → r ≠ rn) → t.reg r = s.reg r) ∧
      SameButRegisters s t

/-- A store completes: byte `k` of Rd stands at the address plus `k`, every other byte is as before, the base is
updated as R242 says, and nothing else changes but the pc. -/
def StoreCompletes (i : Instr) (s : State) (ix : Indexing) (rn rd : Reg) (off : Word) (n : Nat) : Prop :=
  condPassed i.cond s.flags = true → i.wellFormed = true → i.missingFeature s.cfg = none →
    Access.allowed s.cfg (s.transferAddress ix rn off, n) →
    ∃ t, exec i s = .next t ∧ t.pc = s.pc + 4#32 ∧
      (∀ k < n, t.mem.read ((s.transferAddress ix rn off).toNat + k) = byteAt (s.reg rd) k) ∧
      (∀ a, a < (s.transferAddress ix rn off).toNat ∨ (s.transferAddress ix rn off).toNat + n ≤ a →
        t.mem.read a = s.mem.read a) ∧
      (ix.p = false ∨ ix.w = true → t.reg rn = if ix.u then s.reg rn + off else s.reg rn - off) ∧
      (∀ r, r ≠ regPC → (ix.p = false ∨ ix.w = true → r ≠ rn) → t.reg r = s.reg r) ∧
      t.flags = s.flags ∧ t.cfg = s.cfg ∧ t.mulDraws = s.mulDraws

/-- The words of the loads (20_memory.md R54): little-endian, zero-extended or sign-extended. -/
def loadedWord (m : Memory) (a : Nat) : Word := BitVec.ofNat 32 (bytesAt m a 4)

def loadedByte (m : Memory) (a : Nat) : Word := BitVec.ofNat 32 (bytesAt m a 1)

def loadedHalf (m : Memory) (a : Nat) : Word := BitVec.ofNat 32 (bytesAt m a 2)

def loadedSignedByte (m : Memory) (a : Nat) : Word := BitVec.ofInt 32 (BitVec.ofNat 8 (bytesAt m a 1)).toInt

def loadedSignedHalf (m : Memory) (a : Nat) : Word := BitVec.ofInt 32 (BitVec.ofNat 16 (bytesAt m a 2)).toInt

/-- A swap completes: Rd holds the zero-extended old contents, memory the low bytes of Rm. -/
def SwapCompletes (i : Instr) (s : State) (rn rd rm : Reg) (n : Nat) : Prop :=
  condPassed i.cond s.flags = true → i.wellFormed = true → i.missingFeature s.cfg = none →
    Access.allowed s.cfg (s.reg rn, n) →
    ∃ t, exec i s = .next t ∧ t.pc = s.pc + 4#32 ∧ t.reg rd = BitVec.ofNat 32 (bytesAt s.mem (s.reg rn).toNat n) ∧
      (∀ k < n, t.mem.read ((s.reg rn).toNat + k) = byteAt (s.reg rm) k) ∧
      (∀ a, a < (s.reg rn).toNat ∨ (s.reg rn).toNat + n ≤ a → t.mem.read a = s.mem.read a) ∧
      (∀ r, r ≠ regPC → r ≠ rd → t.reg r = s.reg r) ∧
      t.flags = s.flags ∧ t.cfg = s.cfg ∧ t.mulDraws = s.mulDraws

/-- How many registers of a list have a number below `n`: for `n` = 16 the number of registers of the list, and for
`n` a register of the list its place k in ascending order (45_block_transfer.md R285). -/
def listedBelow (list : BitVec 16) (n : Nat) : Nat := ((List.range n).filter (fun i => list.getLsbD i)).length

/-- The address a register of a list is transferred at: `start + 4k` modulo 2^32 (R285). -/
def blockAddress (s : State) (ix : Indexing) (rn : Reg) (list : BitVec 16) (r : Reg) : Nat :=
  (s.blockStart ix rn list + BitVec.ofNat 32 (4 * listedBelow list r.toNat)).toNat

/-- The flags after a flag-setting multiply: N and Z as given, C some bit, V unchanged; and one draw is taken. Without
S nothing of this changes (43_multiply.md R222, R226). -/
def MultiplyFlags (s t : State) (sf n z : Bool) : Prop :=
  if sf then t.flags.n = n ∧ t.flags.z = z ∧ t.flags.v = s.flags.v ∧ t.mulDraws = s.mulDraws + 1
  else t.flags = s.flags ∧ t.mulDraws = s.mulDraws

/-- A multiply with a 32-bit result completes. -/
def MultiplyCompletes (i : Instr) (s : State) (sf : Bool) (rd : Reg) (v : Nat) : Prop :=
  condPassed i.cond s.flags = true → i.wellFormed = true →
    ∃ t, exec i s = .next t ∧ t.pc = s.pc + 4#32 ∧ (t.reg rd).toNat = v % 2 ^ 32 ∧
      (∀ r, r ≠ regPC → r ≠ rd → t.reg r = s.reg r) ∧
      MultiplyFlags s t sf (decide (2 ^ 31 ≤ v % 2 ^ 32)) (decide (v % 2 ^ 32 = 0)) ∧
      (∀ a, t.mem.read a = s.mem.read a) ∧ t.cfg = s.cfg

/-- A long multiply completes; `p` is its result as an integer, taken modulo 2^64. -/
def LongMultiplyCompletes (i : Instr) (s : State) (sf : Bool) (rdHi rdLo : Reg) (p : Int) : Prop :=
  condPassed i.cond s.flags = true → i.wellFormed = true → s.cfg.admitLongMul = true →
    ∃ t, exec i s = .next t ∧ t.pc = s.pc + 4#32 ∧
      ((t.reg rdHi).toNat * 2 ^ 32 + (t.reg rdLo).toNat : Int) = p % 2 ^ 64 ∧
      (∀ r, r ≠ regPC → r ≠ rdHi → r ≠ rdLo → t.reg r = s.reg r) ∧
      MultiplyFlags s t sf (decide ((2 ^ 63 : Int) ≤ p % 2 ^ 64)) (decide (p % 2 ^ 64 = 0)) ∧
      (∀ a, t.mem.read a = s.mem.read a) ∧ t.cfg = s.cfg

/-- The fault of the first access of a list that is misaligned or outside memory (60_exceptions.md R329 step 9). -/
def accessFault (c : Config) : List Access → Option Fault
  | [] => none
  | x :: rest =>
    if x.1.toNat % x.2 ≠ 0 then some (.dataMisaligned x.1 x.2)
    else if x.1.toNat < c.memBase.toNat ∨ c.memBase.toNat + c.memSize < x.1.toNat + x.2 then
      some (.accessOutOfRange x.1 x.2)
    else accessFault c rest

/-- The fault of an instruction whose condition passed (R329 steps 6 to 9). -/
def instrFault (i : Instr) (s : State) : Option Fault :=
  match i.missingFeature s.cfg with
  | some f => some (.unsupported f)
  | none =>
    if i.wellFormed then accessFault s.cfg (i.accesses s) else i.unpredictableReason.map (fun r => .unpredictable r)

/-- What stops a step, in the order of R329 steps 1 to 9. -/
def stepFault (s : State) : Option Fault :=
  if s.pc = s.cfg.endPc then some .runEnded
  else if s.pc.toNat % 4 ≠ 0 then some (.fetchMisaligned s.pc)
  else if s.pc.toNat < s.cfg.memBase.toNat ∨ s.cfg.memBase.toNat + s.cfg.memSize < s.pc.toNat + 4 then
    some (.accessOutOfRange s.pc 4)
  else if condPassed (condOf s.fetchWord) s.flags = false then none
  else
    match decode s.fetchWord with
    | .reserved _ => some (.reservedEncoding s.fetchWord)
    | .instr i => instrFault i s

/-- The unsigned number RdHi : RdLo. -/
def pairNat (s : State) (rdHi rdLo : Reg) : Nat := (s.reg rdHi).toNat * 2 ^ 32 + (s.reg rdLo).toNat

end Sys2Proof.Claims

open Sys2Proof.Claims

/-! ### Encoding -/

/-- Every instruction is what the decoder reads from its word (30_encoding.md sections 2 to 5): every field of every
constructor at every value. -/
def Obligations.DecodeOfEncode : Prop := ∀ i : Instr, decode (encode i) = .instr i

/-- Every word the decoder accepts is the word of the instruction it answers: no bit is dropped (R106: "Fixed bits are
exact"). -/
def Obligations.EncodeOfDecode : Prop := ∀ (w : Word) (i : Instr), decode w = .instr i → encode i = w

/-- The word of every instruction lies in its row of spec/opcode_table.json. -/
def Obligations.EncodedWordMatchesTableRow : Prop :=
  ∀ i : Instr, encode i &&& (tableRow i).1 = (tableRow i).2

/-- The decoder rejects exactly the words that R100, R101, R102 and R104 list. -/
def Obligations.ReservedWordsAreThoseListed : Prop :=
  ∀ w : Word, (∃ why, decode w = .reserved why) ↔ reservedWord w

/-- Words the source prints (95_test_vectors.md section 1.1), one of each documented family. -/
def Obligations.SourceWordsDecode : Prop :=
  decode 0xE2810C01#32 = .instr (.addImm .al false 1#4 0#4 ⟨12#4, 1#8⟩) ∧
    decode 0xE0B31005#32 = .instr (.adcReg3 .al true 3#4 1#4 ⟨0#5, .lsl, 5#4⟩) ∧
    decode 0xE3500032#32 = .instr (.cmpImm .al 0#4 0#4 ⟨0#4, 50#8⟩) ∧
    decode 0x1AFFFFFB#32 = .instr (.b .ne 0xFFFFFB#24) ∧
    decode 0xE12FFF1E#32 = .instr (.bx .al 14#4) ∧
    decode 0xE0203291#32 = .instr (.mla .al false 0#4 3#4 2#4 1#4) ∧
    decode 0xE6C10002#32 = .instr (.strbReg .al ⟨false, true, false⟩ 1#4 0#4 ⟨0#5, .lsl, 2#4⟩) ∧
    decode 0xE8BD8070#32 = .instr (.ldm .al ⟨false, true, true⟩ 13#4 0x8070#16)

/-! ### The instruction cycle -/

/-- A step runs the decoded instruction (R183). -/
def Obligations.StepRunsDecodedInstruction : Prop :=
  ∀ (s : State) (i : Instr), s.pc ≠ s.cfg.endPc → Access.allowed s.cfg (s.pc, 4) → decode s.fetchWord = .instr i →
    step s = exec i s

/-- R184: a word whose condition fails, whatever its other bits, only advances the pc by 4. -/
def Obligations.FailedConditionOnlyAdvancesPc : Prop :=
  (∀ s : State, s.pc ≠ s.cfg.endPc → Access.allowed s.cfg (s.pc, 4) → condPassed (condOf s.fetchWord) s.flags = false →
    step s = .next { s with pc := s.pc + 4#32 }) ∧
  ∀ (i : Instr) (s : State), condPassed i.cond s.flags = false → exec i s = .next { s with pc := s.pc + 4#32 }

/-- R99: executing a reserved word whose condition passes raises `ReservedEncoding(w)`. -/
def Obligations.ReservedWordFaults : Prop :=
  ∀ s : State, s.pc ≠ s.cfg.endPc → Access.allowed s.cfg (s.pc, 4) → condPassed (condOf s.fetchWord) s.flags = true →
    reservedWord s.fetchWord → step s = .fault (.reservedEncoding s.fetchWord)

/-- What stops a step before its instruction is fetched, in the order of R183: `END_PC`, then a misaligned pc, then a
pc outside memory. -/
def Obligations.StepStopsBeforeFetch : Prop :=
  ∀ s : State,
    (s.pc = s.cfg.endPc → step s = .fault .runEnded) ∧
    (s.pc ≠ s.cfg.endPc → s.pc.toNat % 4 ≠ 0 → step s = .fault (.fetchMisaligned s.pc)) ∧
    (s.pc ≠ s.cfg.endPc → s.pc.toNat % 4 = 0 →
      (s.pc.toNat < s.cfg.memBase.toNat ∨ s.cfg.memBase.toNat + s.cfg.memSize < s.pc.toNat + 4) →
      step s = .fault (.accessOutOfRange s.pc 4))

/-- A store is seen by a later fetch (R63): the word STR stored is what a fetch at its address reads. -/
def Obligations.FetchReadsStoredWord : Prop :=
  ∀ (s t : State) (c : Cond) (ix : Indexing) (rn rd : Reg), condPassed c s.flags = true →
    (∀ off, exec (.strImm c ix rn rd off) s = .next t →
      { t with pc := s.transferAddress ix rn (offsetImm off) }.fetchWord = s.reg rd) ∧
    (∀ o, exec (.strReg c ix rn rd o) s = .next t →
      { t with pc := s.transferAddress ix rn (s.offsetReg o) }.fetchWord = s.reg rd)

/-! ### Memory and registers -/

/-- R51: MemRead is the sum of the bytes with weight 2^(8k), for data and for the fetch; MemWrite sets byte k to bits
8k + 7 to 8k and leaves every other byte. -/
def Obligations.MemoryIsLittleEndian : Prop :=
  (∀ s : State, s.fetchWord.toNat = bytesAt s.mem s.pc.toNat 4) ∧
  ∀ (m : Memory) (a : Nat),
    (m.readWord a).toNat = bytesAt m a 4 ∧ (m.readHalf a).toNat = bytesAt m a 2 ∧ (m.read a).toNat = bytesAt m a 1 ∧
      ∀ (w : Width) (v : Word),
        (∀ k < w.bytes, (m.store w a v).read (a + k) = byteAt v k) ∧
        ∀ x, x < a ∨ a + w.bytes ≤ x → (m.store w a v).read x = m.read x

/-- R65: what accesses of another width see after a word store and after a byte store. -/
def Obligations.MixedWidthAccesses : Prop :=
  ∀ (m : Memory) (a : Nat) (v : Word),
    (∀ k < 4, (m.store .word a v).read (a + k) = v.extractLsb' (8 * k) 8) ∧
    (∀ h < 2, (m.store .word a v).readHalf (a + 2 * h) = v.extractLsb' (16 * h) 16) ∧
    ∀ k < 4, ∀ j < 4, ((m.store .byte (a + k) v).readWord a).extractLsb' (8 * j) 8 =
      if j = k then v.extractLsb' 0 8 else (m.readWord a).extractLsb' (8 * j) 8

/-- The register file (R12, R20, R22, R25, R26): a register read gives what was written to it last, R15 reads as
pc + 8 and a write of R15 sets all of the pc. -/
def Obligations.RegisterReadsAndWrites : Prop :=
  ∀ (s : State) (r : Reg) (v : Word),
    s.reg regPC = s.pc + 8#32 ∧ s.setReg regPC v = { s with pc := v } ∧
      (r ≠ regPC → (s.setReg r v).reg r = v ∧ (s.setReg r v).pc = s.pc ∧
        ∀ q, q ≠ r → (s.setReg r v).reg q = s.reg q) ∧
      (∀ q, q ≠ regPC → (s.setReg regPC v).reg q = s.reg q) ∧
      (s.setReg r v).flags = s.flags ∧ (s.setReg r v).mem = s.mem ∧ (s.setReg r v).cfg = s.cfg ∧
      (s.setReg r v).mulDraws = s.mulDraws

/-! ### Reset and invariants -/

/-- The reset state: pc is `RESET_PC` and memory lists nothing (R351). That the registers and flags are 0, that an
unlisted byte reads as 0 and that every tier-2 feature is admitted are the model's choices (log 2, 5, 6, 7). -/
def Obligations.ResetState : Prop :=
  State.reset.pc = State.reset.cfg.resetPc ∧ (∀ r, r ≠ regPC → State.reset.reg r = 0#32) ∧
    State.reset.flags = ⟨false, false, false, false⟩ ∧ (∀ a, State.reset.mem.read a = 0#8) ∧
    State.reset.cfg.admitHalfword = true ∧ State.reset.cfg.admitPsr = true ∧ State.reset.cfg.admitLongMul = true ∧
    State.reset.cfg.admitRrx = true ∧ State.reset.cfg.admitSwpb = true

/-- The reset state meets the invariant. -/
def Obligations.ResetMeetsInvariant : Prop := State.reset.Inv

/-- Every step keeps the invariant: a legal configuration, memory in its canonical form, no listed byte outside
`[MEM_BASE, MEM_BASE + MEM_SIZE)`. -/
def Obligations.StepKeepsInvariant : Prop := ∀ s t : State, s.Inv → step s = .next t → t.Inv

/-- No instruction changes a parameter, and only a flag-setting multiply takes a draw (R356). -/
def Obligations.ExecKeepsParameters : Prop :=
  ∀ (i : Instr) (s t : State), exec i s = .next t →
    t.cfg = s.cfg ∧
      t.mulDraws = if condPassed i.cond s.flags = true ∧ i.drawsCarry = true then s.mulDraws + 1 else s.mulDraws

/-- A step that executes no flag-setting multiply does not depend on the draws of `MUL_C` (R356). -/
def Obligations.StepIgnoresDraws : Prop :=
  ∀ (s : State) (n : Nat), (∀ i, decode s.fetchWord = .instr i → i.drawsCarry = false) →
    (∀ t, step s = .next t → step { s with mulDraws := n } = .next { t with mulDraws := n }) ∧
    (∀ f, step s = .fault f → step { s with mulDraws := n } = .fault f)

/-! ### Frames and whole-machine rules -/

/-- Only the registers of R23's table change. -/
def Obligations.OnlyDestinationsChange : Prop :=
  ∀ (i : Instr) (s t : State) (r : Reg), exec i s = .next t → r ≠ regPC → r ∉ i.destinations → t.reg r = s.reg r

/-- Only the instructions of R29's table change the flags. -/
def Obligations.OnlyFlagWritersChangeFlags : Prop :=
  ∀ (i : Instr) (s t : State), exec i s = .next t → i.writesFlags = false → t.flags = s.flags

/-- Memory changes only in the bytes an instruction stores to; an instruction that stores nothing changes none. -/
def Obligations.OnlyStoredBytesChange : Prop :=
  ∀ (i : Instr) (s t : State) (a : Nat), exec i s = .next t → ¬i.storesTo s a → t.mem.read a = s.mem.read a

/-- R27: an instruction that does not write R15 or branch, and every instruction whose condition fails, ends with
pc + 4 modulo 2^32. -/
def Obligations.PcAdvancesUnlessWritten : Prop :=
  ∀ (i : Instr) (s t : State), exec i s = .next t →
    (condPassed i.cond s.flags = false ∨ regPC ∉ i.destinations) → t.pc = s.pc + 4#32

/-- A misaligned pc arises only from a write of R15 (R53): every instruction that does not write R15 through a register
or a load, B and BL included, keeps the pc a multiple of 4. -/
def Obligations.PcStaysAligned : Prop :=
  ∀ (i : Instr) (s t : State), exec i s = .next t → s.pc.toNat % 4 = 0 →
    ((∃ c off, i = .b c off ∨ i = .bl c off) ∨ regPC ∉ i.destinations) → t.pc.toNat % 4 = 0

/-- Every admitted, well-formed instruction completes when its condition passes and its accesses are aligned and inside
memory. MOV and MVN in the form reg4 are well formed whatever their ignored Rn (log 12). -/
def Obligations.AdmittedInstructionCompletes : Prop :=
  ∀ (i : Instr) (s : State), condPassed i.cond s.flags = true → i.missingFeature s.cfg = none →
    i.wellFormed = true → (∀ x ∈ i.accesses s, Access.allowed s.cfg x) → ∃ t, exec i s = .next t

/-- R322: `Unsupported(f)` is raised exactly when the condition passes and the instruction lacks the feature. -/
def Obligations.UnsupportedExactlyWhenMissing : Prop :=
  ∀ (i : Instr) (s : State) (f : Feature),
    exec i s = .fault (.unsupported f) ↔ condPassed i.cond s.flags = true ∧ i.missingFeature s.cfg = some f

/-- R323: `Unpredictable(r)` is raised exactly when the condition passes, the features are admitted and the operands are
ill formed. That the ignored Rn of MOV and MVN in the form reg4 may be R15 is the model's reading (log 12). -/
def Obligations.UnpredictableExactlyWhenIllFormed : Prop :=
  ∀ (i : Instr) (s : State) (r : Reason),
    exec i s = .fault (.unpredictable r) ↔
      condPassed i.cond s.flags = true ∧ i.missingFeature s.cfg = none ∧ i.wellFormed = false ∧
        i.unpredictableReason = some r

/-- The first access that is misaligned or outside memory decides the fault, alignment before range (R329 step 9). -/
def Obligations.FirstBadAccessFaults : Prop :=
  ∀ (i : Instr) (s : State) (before after : List Access) (x : Access), condPassed i.cond s.flags = true →
    i.missingFeature s.cfg = none → i.wellFormed = true → i.accesses s = before ++ x :: after →
    (∀ y ∈ before, Access.allowed s.cfg y) → ¬Access.allowed s.cfg x →
    exec i s = .fault (if x.1.toNat % x.2 = 0 then .accessOutOfRange x.1 x.2 else .dataMisaligned x.1 x.2)

/-- R329: which of several faults a step reports, and that it completes when none applies. The Rn of MOV and MVN in the
form reg4 is ignored, R15 or not (log 12). -/
def Obligations.OrderOfChecks : Prop :=
  ∀ s : State, (∀ f, step s = .fault f ↔ stepFault s = some f) ∧ ((∃ t, step s = .next t) ↔ stepFault s = none)

/-! ### Conditions -/

/-- R180: the truth of each value of the condition field. -/
def Obligations.ConditionTable : Prop :=
  ∀ f : Flags,
    let holds := fun field : BitVec 4 => condPassed (Cond.ofBits field) f
    (holds 0b0000#4 = true ↔ f.z = true) ∧ (holds 0b0001#4 = true ↔ f.z = false) ∧
    (holds 0b0010#4 = true ↔ f.c = true) ∧ (holds 0b0011#4 = true ↔ f.c = false) ∧
    (holds 0b0100#4 = true ↔ f.n = true) ∧ (holds 0b0101#4 = true ↔ f.n = false) ∧
    (holds 0b0110#4 = true ↔ f.v = true) ∧ (holds 0b0111#4 = true ↔ f.v = false) ∧
    (holds 0b1000#4 = true ↔ f.c = true ∧ f.z = false) ∧ (holds 0b1001#4 = true ↔ f.c = false ∨ f.z = true) ∧
    (holds 0b1010#4 = true ↔ f.n = f.v) ∧ (holds 0b1011#4 = true ↔ f.n ≠ f.v) ∧
    (holds 0b1100#4 = true ↔ f.z = false ∧ f.n = f.v) ∧ (holds 0b1101#4 = true ↔ f.z = true ∨ f.n ≠ f.v) ∧
    holds 0b1110#4 = true ∧ holds 0b1111#4 = false

/-- R181: what the conditions say after a compare, and after a flag-setting subtraction, of `a` and `b`. -/
def Obligations.ConditionsAfterCompare : Prop :=
  ∀ (s t : State) (c : Cond) (rn rd : Reg) (o : ShiftedReg), condPassed c s.flags = true →
    (exec (.cmpReg3 c rn rd o) s = .next t ∨ exec (.subReg3 c true rn rd o) s = .next t) →
    let a := s.reg rn
    let b := (s.op2Reg3 o).value
    (condPassed .eq t.flags = true ↔ a = b) ∧ (condPassed .ne t.flags = true ↔ a ≠ b) ∧
    (condPassed .cs t.flags = true ↔ b.toNat ≤ a.toNat) ∧ (condPassed .cc t.flags = true ↔ a.toNat < b.toNat) ∧
    (condPassed .hi t.flags = true ↔ b.toNat < a.toNat) ∧ (condPassed .ls t.flags = true ↔ a.toNat ≤ b.toNat) ∧
    (condPassed .ge t.flags = true ↔ b.toInt ≤ a.toInt) ∧ (condPassed .lt t.flags = true ↔ a.toInt < b.toInt) ∧
    (condPassed .gt t.flags = true ↔ b.toInt < a.toInt) ∧ (condPassed .le t.flags = true ↔ a.toInt ≤ b.toInt) ∧
    (condPassed .mi t.flags = true ↔ (a - b).getLsbD 31 = true) ∧
    (condPassed .pl t.flags = true ↔ (a - b).getLsbD 31 = false) ∧
    (condPassed .vs t.flags = true ↔ fitsSigned (a.toInt - b.toInt) = false) ∧
    (condPassed .vc t.flags = true ↔ fitsSigned (a.toInt - b.toInt) = true)

/-! ### Data processing -/

/-- R121: ShiftImm, in arithmetic, and that operand 2 of the form reg3 is ShiftImm of Rm (R120) and the register offset
of LDR and STR its value (44_data_transfer.md R241). -/
def Obligations.ShiftByImmediate : Prop :=
  (∀ (s : State) (o : ShiftedReg),
    s.op2Reg3 o = shiftImm (s.reg o.rm) o.kind o.amount s.flags.c ∧
      s.offsetReg o = (shiftImm (s.reg o.rm) o.kind o.amount s.flags.c).value) ∧
  ∀ (v : Word) (n : BitVec 5) (cin : Bool),
    shiftImm v .lsl 0#5 cin = ⟨v, cin⟩ ∧ shiftImm v .lsr 0#5 cin = ⟨0#32, v.getLsbD 31⟩ ∧
    shiftImm v .asr 0#5 cin = ⟨if v.getLsbD 31 then 0xFFFFFFFF#32 else 0#32, v.getLsbD 31⟩ ∧
    shiftImm v .ror 0#5 cin = ⟨BitVec.ofNat 32 (cin.toNat * 2 ^ 31 + v.toNat / 2), v.getLsbD 0⟩ ∧
    (n ≠ 0#5 →
      shiftImm v .lsl n cin = ⟨BitVec.ofNat 32 (v.toNat * 2 ^ n.toNat), v.getLsbD (32 - n.toNat)⟩ ∧
      shiftImm v .lsr n cin = ⟨BitVec.ofNat 32 (v.toNat / 2 ^ n.toNat), v.getLsbD (n.toNat - 1)⟩ ∧
      shiftImm v .asr n cin = ⟨BitVec.ofInt 32 (v.toInt / 2 ^ n.toNat), v.getLsbD (n.toNat - 1)⟩ ∧
      shiftImm v .ror n cin =
        ⟨BitVec.ofNat 32 (v.toNat / 2 ^ n.toNat + v.toNat % 2 ^ n.toNat * 2 ^ (32 - n.toNat)),
          v.getLsbD (n.toNat - 1)⟩)

/-- R122: ShiftReg, in arithmetic, and that only the low byte of Rs counts. -/
def Obligations.ShiftByRegister : Prop :=
  (∀ (s : State) (o : RegShiftedReg),
    s.op2Reg4 o = shiftReg (s.reg o.rm) o.kind ((s.reg o.rs).toNat % 256) s.flags.c) ∧
  ∀ (v : Word) (n : Nat) (cin : Bool),
    (∀ kind, shiftReg v kind 0 cin = ⟨v, cin⟩) ∧
    (1 ≤ n → n ≤ 31 →
      shiftReg v .lsl n cin = ⟨BitVec.ofNat 32 (v.toNat * 2 ^ n), v.getLsbD (32 - n)⟩ ∧
      shiftReg v .lsr n cin = ⟨BitVec.ofNat 32 (v.toNat / 2 ^ n), v.getLsbD (n - 1)⟩ ∧
      shiftReg v .asr n cin = ⟨BitVec.ofInt 32 (v.toInt / 2 ^ n), v.getLsbD (n - 1)⟩) ∧
    shiftReg v .lsl 32 cin = ⟨0#32, v.getLsbD 0⟩ ∧ shiftReg v .lsr 32 cin = ⟨0#32, v.getLsbD 31⟩ ∧
    (33 ≤ n → shiftReg v .lsl n cin = ⟨0#32, false⟩ ∧ shiftReg v .lsr n cin = ⟨0#32, false⟩) ∧
    (32 ≤ n → shiftReg v .asr n cin = ⟨if v.getLsbD 31 then 0xFFFFFFFF#32 else 0#32, v.getLsbD 31⟩) ∧
    (0 < n → n % 32 = 0 → shiftReg v .ror n cin = ⟨v, v.getLsbD 31⟩) ∧
    (n % 32 ≠ 0 → shiftReg v .ror n cin =
      ⟨BitVec.ofNat 32 (v.toNat / 2 ^ (n % 32) + v.toNat % 2 ^ (n % 32) * 2 ^ (32 - n % 32)),
        v.getLsbD (n % 32 - 1)⟩)

/-- R123: ImmOperand, in arithmetic; that operand 2 of the form imm is ImmOperand with the old C (R120), and that the
value an MSR takes from an immediate is its value (46_status_register.md R303). -/
def Obligations.RotatedImmediate : Prop :=
  (∀ (s : State) (o : RotImm), s.op2Imm o = immOperand o s.flags.c) ∧
  (∀ (o : RotImm) (cin : Bool), rotImmValue o = (immOperand o cin).value) ∧
  ∀ (rot : BitVec 4) (imm : BitVec 8) (cin : Bool),
    immOperand ⟨0#4, imm⟩ cin = ⟨BitVec.ofNat 32 imm.toNat, cin⟩ ∧
    (rot ≠ 0#4 →
      (immOperand ⟨rot, imm⟩ cin).value =
        BitVec.ofNat 32 (imm.toNat / 2 ^ (2 * rot.toNat) + imm.toNat * 2 ^ (32 - 2 * rot.toNat)) ∧
      (immOperand ⟨rot, imm⟩ cin).carry = (immOperand ⟨rot, imm⟩ cin).value.getLsbD 31)

/-- AND, EOR, ORR and BIC in all forms: value, flags, frame (section 4). -/
def Obligations.BitwiseResults : Prop :=
  ThreeForms .andImm .andReg3 .andReg4 true (fun f a o => logical f (a &&& o.value) o) ∧
  ThreeForms .eorImm .eorReg3 .eorReg4 true (fun f a o => logical f (a ^^^ o.value) o) ∧
  ThreeForms .orrImm .orrReg3 .orrReg4 true (fun f a o => logical f (a ||| o.value) o) ∧
  ThreeForms .bicImm .bicReg3 .bicReg4 true (fun f a o => logical f (a &&& ~~~o.value) o)

/-- MOV and MVN in all forms, whatever the ignored Rn (section 4; that Rn = 15 in reg4 is ignored is log 12). -/
def Obligations.MoveResults : Prop :=
  ThreeForms .movImm .movReg3 .movReg4 false (fun f _ o => logical f o.value o) ∧
  ThreeForms .mvnImm .mvnReg3 .mvnReg4 false (fun f _ o => logical f (BitVec.ofNat 32 (2 ^ 32 - 1 - o.value.toNat)) o)

/-- ADD and ADC in all forms, in unbounded integers (section 4). -/
def Obligations.AddResults : Prop :=
  ThreeForms .addImm .addReg3 .addReg4 true (fun _ a o => sum a o.value 0) ∧
  ThreeForms .adcImm .adcReg3 .adcReg4 true (fun f a o => sum a o.value (if f.c then 1 else 0))

/-- SUB and RSB in all forms, in unbounded integers (section 4). -/
def Obligations.SubtractResults : Prop :=
  ThreeForms .subImm .subReg3 .subReg4 true (fun _ a o => difference a o.value 0) ∧
  ThreeForms .rsbImm .rsbReg3 .rsbReg4 true (fun _ a o => difference o.value a 0)

/-- SBC and RSC in all forms, in unbounded integers (section 4). -/
def Obligations.SubtractWithCarryResults : Prop :=
  ThreeForms .sbcImm .sbcReg3 .sbcReg4 true (fun f a o => difference a o.value (borrowOf f)) ∧
  ThreeForms .rscImm .rscReg3 .rscReg4 true (fun f a o => difference o.value a (borrowOf f))

/-- TST and TEQ in all forms (section 4). -/
def Obligations.TestResults : Prop :=
  CompareForms .tstImm .tstReg3 .tstReg4 (fun f a o => logical f (a &&& o.value) o) ∧
  CompareForms .teqImm .teqReg3 .teqReg4 (fun f a o => logical f (a ^^^ o.value) o)

/-- CMP and CMN in all forms, in unbounded integers (section 4). -/
def Obligations.CompareResults : Prop :=
  CompareForms .cmpImm .cmpReg3 .cmpReg4 (fun _ a o => difference a o.value 0) ∧
  CompareForms .cmnImm .cmnReg3 .cmnReg4 (fun _ a o => sum a o.value 0)

/-! ### Multiplies -/

/-- MUL and MLA (43_multiply.md); C after S = 1 is any bit. -/
def Obligations.MultiplyResults : Prop :=
  ∀ (s : State) (c : Cond) (sf : Bool) (rd rn rs rm : Reg),
    MultiplyCompletes (.mul c sf rd rn rs rm) s sf rd ((s.reg rm).toNat * (s.reg rs).toNat) ∧
    MultiplyCompletes (.mla c sf rd rn rs rm) s sf rd ((s.reg rm).toNat * (s.reg rs).toNat + (s.reg rn).toNat)

/-- R224: MUL is one operation for both readings of its operands. -/
def Obligations.MultiplyIsSignAgnostic : Prop :=
  ∀ (s t : State) (c : Cond) (sf : Bool) (rd rn rs rm : Reg), condPassed c s.flags = true →
    exec (.mul c sf rd rn rs rm) s = .next t →
      ((t.reg rd).toNat : Int) = ((s.reg rm).toInt * (s.reg rs).toInt) % 2 ^ 32 ∧
      ((t.reg rd).toNat : Int) = ((s.reg rm).toNat * (s.reg rs).toNat : Int) % 2 ^ 32

/-- UMULL, UMLAL, SMULL and SMLAL (43_multiply.md); C after S = 1 is any bit. -/
def Obligations.LongMultiplyResults : Prop :=
  ∀ (s : State) (c : Cond) (sf : Bool) (rdHi rdLo rs rm : Reg),
    LongMultiplyCompletes (.umull c sf rdHi rdLo rs rm) s sf rdHi rdLo
      (((s.reg rm).toNat : Int) * (s.reg rs).toNat) ∧
    LongMultiplyCompletes (.umlal c sf rdHi rdLo rs rm) s sf rdHi rdLo
      (((s.reg rm).toNat : Int) * (s.reg rs).toNat + pairNat s rdHi rdLo) ∧
    LongMultiplyCompletes (.smull c sf rdHi rdLo rs rm) s sf rdHi rdLo
      ((s.reg rm).toInt * (s.reg rs).toInt) ∧
    LongMultiplyCompletes (.smlal c sf rdHi rdLo rs rm) s sf rdHi rdLo
      ((s.reg rm).toInt * (s.reg rs).toInt + pairNat s rdHi rdLo)

/-! ### Transfers -/

/-- R242 and R254, for every P, U, W, Rn and 32-bit offset: `moved` modulo 2^32, the address used, and that the base is
updated exactly when P = 0 or W = 1; the immediate offsets (R241, R254); and the table as LDRB shows it. -/
def Obligations.IndexingTable : Prop :=
  (∀ (s : State) (ix : Indexing) (rn : Reg) (off : Word),
    s.moved ix rn off =
        BitVec.ofInt 32 (if ix.u then ((s.reg rn).toNat : Int) + off.toNat else ((s.reg rn).toNat : Int) - off.toNat) ∧
      s.transferAddress ix rn off = (if ix.p then s.moved ix rn off else s.reg rn) ∧
      s.updateBase ix rn (s.moved ix rn off) =
        if ix.p = true ∧ ix.w = false then s else s.setReg rn (s.moved ix rn off)) ∧
  (∀ off : BitVec 12, offsetImm off = BitVec.ofNat 32 off.toNat) ∧
  (∀ off : BitVec 8, offsetImm8 off = BitVec.ofNat 32 off.toNat) ∧
  ∀ (s t : State) (c : Cond) (ix : Indexing) (rn rd : Reg) (off : BitVec 12), condPassed c s.flags = true →
    exec (.ldrbImm c ix rn rd off) s = .next t →
    let moved := if ix.u then s.reg rn + off.zeroExtend 32 else s.reg rn - off.zeroExtend 32
    let address := if ix.p then moved else s.reg rn
    t.reg rd = loadedByte s.mem address.toNat ∧
      (rn ≠ rd → rn ≠ regPC → t.reg rn = if ix.p = true ∧ ix.w = false then s.reg rn else moved)

/-- LDR and LDRB, immediate and register offset (44_data_transfer.md section 2). -/
def Obligations.LoadResults : Prop :=
  ∀ (s : State) (c : Cond) (ix : Indexing) (rn rd : Reg),
    (∀ off, LoadCompletes (.ldrImm c ix rn rd off) s ix rn rd (offsetImm off) 4 loadedWord) ∧
    (∀ o, LoadCompletes (.ldrReg c ix rn rd o) s ix rn rd (s.offsetReg o) 4 loadedWord) ∧
    (∀ off, LoadCompletes (.ldrbImm c ix rn rd off) s ix rn rd (offsetImm off) 1 loadedByte) ∧
    (∀ o, LoadCompletes (.ldrbReg c ix rn rd o) s ix rn rd (s.offsetReg o) 1 loadedByte)

/-- STR and STRB, immediate and register offset (44_data_transfer.md section 2). -/
def Obligations.StoreResults : Prop :=
  ∀ (s : State) (c : Cond) (ix : Indexing) (rn rd : Reg),
    (∀ off, StoreCompletes (.strImm c ix rn rd off) s ix rn rd (offsetImm off) 4) ∧
    (∀ o, StoreCompletes (.strReg c ix rn rd o) s ix rn rd (s.offsetReg o) 4) ∧
    (∀ off, StoreCompletes (.strbImm c ix rn rd off) s ix rn rd (offsetImm off) 1) ∧
    (∀ o, StoreCompletes (.strbReg c ix rn rd o) s ix rn rd (s.offsetReg o) 1)

/-- LDRH, LDRSB and LDRSH, register and immediate offset (44_data_transfer.md section 4). -/
def Obligations.HalfwordAndSignedLoadResults : Prop :=
  ∀ (s : State) (c : Cond) (ix : Indexing) (rn rd : Reg),
    (∀ off, LoadCompletes (.ldrhImm c ix rn rd off) s ix rn rd (offsetImm8 off) 2 loadedHalf) ∧
    (∀ rm, LoadCompletes (.ldrhReg c ix rn rd rm) s ix rn rd (s.reg rm) 2 loadedHalf) ∧
    (∀ off, LoadCompletes (.ldrsbImm c ix rn rd off) s ix rn rd (offsetImm8 off) 1 loadedSignedByte) ∧
    (∀ rm, LoadCompletes (.ldrsbReg c ix rn rd rm) s ix rn rd (s.reg rm) 1 loadedSignedByte) ∧
    (∀ off, LoadCompletes (.ldrshImm c ix rn rd off) s ix rn rd (offsetImm8 off) 2 loadedSignedHalf) ∧
    (∀ rm, LoadCompletes (.ldrshReg c ix rn rd rm) s ix rn rd (s.reg rm) 2 loadedSignedHalf)

/-- STRH, register and immediate offset (44_data_transfer.md section 4). -/
def Obligations.HalfwordStoreResults : Prop :=
  ∀ (s : State) (c : Cond) (ix : Indexing) (rn rd : Reg),
    (∀ off, StoreCompletes (.strhImm c ix rn rd off) s ix rn rd (offsetImm8 off) 2) ∧
    (∀ rm, StoreCompletes (.strhReg c ix rn rd rm) s ix rn rd (s.reg rm) 2)

/-- SWP and SWPB (44_data_transfer.md section 3). -/
def Obligations.SwapResults : Prop :=
  ∀ (s : State) (c : Cond) (rn rd rm : Reg),
    SwapCompletes (.swp c rn rd rm) s rn rd rm 4 ∧ SwapCompletes (.swpb c rn rd rm) s rn rd rm 1

/-! ### Block transfers -/

/-- R285: `start` and `final` for each P and U, with n the number of registers of the list. -/
def Obligations.BlockAddressTable : Prop :=
  ∀ (s : State) (w : Bool) (rn : Reg) (list : BitVec 16),
    let base := s.reg rn
    let n4 := BitVec.ofNat 32 (4 * listedBelow list 16)
    s.blockStart ⟨false, true, w⟩ rn list = base ∧ s.blockFinal ⟨false, true, w⟩ rn list = base + n4 ∧
    s.blockStart ⟨true, true, w⟩ rn list = base + 4#32 ∧ s.blockFinal ⟨true, true, w⟩ rn list = base + n4 ∧
    s.blockStart ⟨false, false, w⟩ rn list = base - n4 + 4#32 ∧
    s.blockFinal ⟨false, false, w⟩ rn list = base - n4 ∧
    s.blockStart ⟨true, false, w⟩ rn list = base - n4 ∧ s.blockFinal ⟨true, false, w⟩ rn list = base - n4

/-- LDM (45_block_transfer.md section 3): each listed register gets the word at `start + 4k`, R15 in the pc; with W = 1
the base gets `final`; nothing else changes. -/
def Obligations.LoadMultipleResult : Prop :=
  ∀ (s : State) (c : Cond) (ix : Indexing) (rn : Reg) (list : BitVec 16), condPassed c s.flags = true →
    (Instr.ldm c ix rn list).wellFormed = true →
    (∀ x ∈ (Instr.ldm c ix rn list).accesses s, Access.allowed s.cfg x) →
    ∃ t, exec (.ldm c ix rn list) s = .next t ∧
      t.pc = (if list.getLsbD 15 then loadedWord s.mem (blockAddress s ix rn list regPC) else s.pc + 4#32) ∧
      (∀ r, r ≠ regPC → list.getLsbD r.toNat = true → t.reg r = loadedWord s.mem (blockAddress s ix rn list r)) ∧
      (ix.w = true → t.reg rn = s.blockFinal ix rn list) ∧
      (∀ r, r ≠ regPC → list.getLsbD r.toNat = false → (ix.w = true → r ≠ rn) → t.reg r = s.reg r) ∧
      SameButRegisters s t

/-- STM (45_block_transfer.md section 3): the word at `start + 4k` is the k-th listed register, every other byte is as
before; with W = 1 the base gets `final`; nothing else changes but the pc. -/
def Obligations.StoreMultipleResult : Prop :=
  ∀ (s : State) (c : Cond) (ix : Indexing) (rn : Reg) (list : BitVec 16), condPassed c s.flags = true →
    (Instr.stm c ix rn list).wellFormed = true →
    (∀ x ∈ (Instr.stm c ix rn list).accesses s, Access.allowed s.cfg x) →
    ∃ t, exec (.stm c ix rn list) s = .next t ∧ t.pc = s.pc + 4#32 ∧
      (∀ r : Reg, list.getLsbD r.toNat = true → ∀ k < 4,
        t.mem.read (blockAddress s ix rn list r + k) = byteAt (s.reg r) k) ∧
      (∀ a, (∀ r : Reg, list.getLsbD r.toNat = true →
          a < blockAddress s ix rn list r ∨ blockAddress s ix rn list r + 4 ≤ a) →
        t.mem.read a = s.mem.read a) ∧
      (ix.w = true → t.reg rn = s.blockFinal ix rn list) ∧
      (∀ r, r ≠ regPC → (ix.w = true → r ≠ rn) → t.reg r = s.reg r) ∧
      t.flags = s.flags ∧ t.cfg = s.cfg ∧ t.mulDraws = s.mulDraws

/-- R282: a block transfer with S = 1 whose condition passes raises `Unsupported(BlockS)`. -/
def Obligations.BlockTransferWithSStops : Prop :=
  ∀ (s : State) (c : Cond) (ix : Indexing) (rn : Reg) (list : BitVec 16), condPassed c s.flags = true →
    exec (.ldmS c ix rn list) s = .fault (.unsupported .blockS) ∧
    exec (.stmS c ix rn list) s = .fault (.unsupported .blockS)

/-- R292: push and pop are inverse. After an STM with write-back, the LDM with P and U inverted (with the listed
registers, the flags and the pc arbitrarily changed in between) restores every register of the list and Rn. -/
def Obligations.PopUndoesPush : Prop :=
  ∀ (s s1 s2 : State) (c c' : Cond) (p u : Bool) (rn : Reg) (list : BitVec 16), condPassed c s.flags = true →
    exec (.stm c ⟨p, u, true⟩ rn list) s = .next s1 → condPassed c' s2.flags = true → s2.cfg = s1.cfg →
    (∀ a, s2.mem.read a = s1.mem.read a) → s2.reg rn = s1.reg rn →
    ∃ s3, exec (.ldm c' ⟨!p, !u, true⟩ rn list) s2 = .next s3 ∧
      (∀ r : Reg, list.getLsbD r.toNat = true → s3.reg r = s.reg r) ∧ s3.reg rn = s.reg rn

/-! ### Branches -/

/-- B, BL and BX complete for every operand (42_branch.md). -/
def Obligations.BranchResults : Prop :=
  ∀ (s : State) (c : Cond), condPassed c s.flags = true →
    (∀ off : BitVec 24, ∃ t, exec (.b c off) s = .next t ∧
      t.pc = BitVec.ofInt 32 (s.pc.toNat + 8 + 4 * off.toInt) ∧
      (∀ r, r ≠ regPC → t.reg r = s.reg r) ∧ SameButRegisters s t) ∧
    (∀ off : BitVec 24, ∃ t, exec (.bl c off) s = .next t ∧
      t.pc = BitVec.ofInt 32 (s.pc.toNat + 8 + 4 * off.toInt) ∧ t.reg regLR = s.pc + 4#32 ∧
      (∀ r, r ≠ regPC → r ≠ regLR → t.reg r = s.reg r) ∧ SameButRegisters s t) ∧
    (∀ rn, ∃ t, exec (.bx c rn) s = .next t ∧ t.pc = (if rn = regPC then s.pc + 8#32 else s.reg rn) ∧
      (∀ r, r ≠ regPC → t.reg r = s.reg r) ∧ SameButRegisters s t)

/-- BX LR, and MOV PC, R14, after a BL resume at the instruction after the BL (42_branch.md R201, R204). -/
def Obligations.ReturnResumesAfterCall : Prop :=
  ∀ (s s1 s2 : State) (c c' : Cond) (off : BitVec 24) (rn : Reg), condPassed c s.flags = true →
    exec (.bl c off) s = .next s1 → s2.reg regLR = s1.reg regLR → condPassed c' s2.flags = true →
    (∃ t, exec (.bx c' regLR) s2 = .next t ∧ t.pc = s.pc + 4#32) ∧
    ∃ t, exec (.movReg3 c' false rn regPC ⟨0#5, .lsl, regLR⟩) s2 = .next t ∧ t.pc = s.pc + 4#32

/-! ### Status register -/

/-- MRS and the three MSR forms, admitted and with bit 22 = 0 (46_status_register.md). -/
def Obligations.StatusRegisterResults : Prop :=
  ∀ (s : State) (c : Cond), condPassed c s.flags = true → s.cfg.admitPsr = true →
    (∀ rd, rd ≠ regPC → ∃ t, exec (.mrs c false rd) s = .next t ∧
      Wrote s t rd (BitVec.ofNat 32 (s.flags.n.toNat * 2 ^ 31 + s.flags.z.toNat * 2 ^ 30 + s.flags.c.toNat * 2 ^ 29 +
        s.flags.v.toNat * 2 ^ 28 + s.cfg.psrLow.toNat)) s.flags) ∧
    (∀ rm, rm ≠ regPC →
      let f : Flags := ⟨(s.reg rm).getLsbD 31, (s.reg rm).getLsbD 30, (s.reg rm).getLsbD 29, (s.reg rm).getLsbD 28⟩
      (∃ t, exec (.msrReg c false rm) s = .next t ∧ WroteFlags s t f) ∧
      ∃ t, exec (.msrRegFlags c false rm) s = .next t ∧ WroteFlags s t f) ∧
    ∀ o : RotImm, ∃ t, exec (.msrImmFlags c false o) s = .next t ∧
      WroteFlags s t ⟨(rotImmValue o).getLsbD 31, (rotImmValue o).getLsbD 30, (rotImmValue o).getLsbD 29,
        (rotImmValue o).getLsbD 28⟩

/-- R304: MRS with Ps = 1 and MSR with Pd = 1 raise `Unsupported(SPSR)`, or `Unsupported(PSR)` when PSR transfers are
not admitted; with bit 22 = 0 and PSR transfers not admitted the fault is `Unsupported(PSR)` too. -/
def Obligations.SavedStatusRegisterStops : Prop :=
  ∀ (s : State) (c : Cond) (i : Instr) (r : Reg) (o : RotImm) (bit22 : Bool), condPassed c s.flags = true →
    (i = .mrs c bit22 r ∨ i = .msrReg c bit22 r ∨ i = .msrRegFlags c bit22 r ∨ i = .msrImmFlags c bit22 o) →
    (s.cfg.admitPsr = false → exec i s = .fault (.unsupported .psr)) ∧
    (s.cfg.admitPsr = true → bit22 = true → exec i s = .fault (.unsupported .spsr))

/-- What MSR wrote is what MRS reads: bits 31 to 28 of the value over `PSR_LOW` (46_status_register.md). -/
def Obligations.StatusReadsBackWhatWasWritten : Prop :=
  ∀ (s t : State) (c c' : Cond) (rm rd : Reg), condPassed c s.flags = true → exec (.msrReg c false rm) s = .next t →
    condPassed c' t.flags = true → rd ≠ regPC →
    ∃ u, exec (.mrs c' false rd) t = .next u ∧ u.reg rd = (s.reg rm).extractLsb' 28 4 ++ s.cfg.psrLow
end

