-- ==== Sys2Proof/Laws/Decode.lean ====
section
/-! SUPPORT. The small lemmas of the decoder and the encoder: the fields of a word read back as they were written. -/

namespace Sys2Proof

@[simp] theorem Cond.ofBits_bits (c : Cond) : Cond.ofBits c.bits = c := by cases c <;> rfl

@[simp] theorem Cond.bits_ofBits (b : BitVec 4) : (Cond.ofBits b).bits = b := by revert b; decide

@[simp] theorem DpOp.ofBits_bits (o : DpOp) : DpOp.ofBits o.bits = o := by cases o <;> rfl

@[simp] theorem DpOp.bits_ofBits (b : BitVec 4) : (DpOp.ofBits b).bits = b := by revert b; decide

@[simp] theorem ShiftKind.ofBits_bits (k : ShiftKind) : ShiftKind.ofBits k.bits = k := by cases k <;> rfl

@[simp] theorem ShiftKind.bits_ofBits (b : BitVec 2) : (ShiftKind.ofBits b).bits = b := by revert b; decide

/-! ### Fields of a word written as parts side by side -/

/-- A field inside the lower part. -/
theorem extractLsb'_append_low {a b : Nat} (x : BitVec a) (y : BitVec b) (start len : Nat) (h : start + len ≤ b) :
    (x ++ y).extractLsb' start len = y.extractLsb' start len := by
  apply BitVec.eq_of_getLsbD_eq
  intro i hi
  simp only [BitVec.getLsbD_append, BitVec.getLsbD_extractLsb']
  simp [show start + i < b by omega]

/-- A field inside the upper part. -/
theorem extractLsb'_append_high {a b : Nat} (x : BitVec a) (y : BitVec b) (start len : Nat) (h : b ≤ start) :
    (x ++ y).extractLsb' start len = x.extractLsb' (start - b) len := by
  apply BitVec.eq_of_getLsbD_eq
  intro i hi
  simp only [BitVec.getLsbD_append, BitVec.getLsbD_extractLsb', show ¬start + i < b by omega, if_false]
  congr 2
  omega

/-- The field that is all of a part. -/
theorem extractLsb'_all {a : Nat} (x : BitVec a) : x.extractLsb' 0 a = x := by
  apply BitVec.eq_of_getLsbD_eq
  intro i hi
  simp [hi]

/-- A bit of the lower part. -/
theorem getLsbD_append_low {a b : Nat} (x : BitVec a) (y : BitVec b) (i : Nat) (h : i < b) :
    (x ++ y).getLsbD i = y.getLsbD i := by
  simp [BitVec.getLsbD_append, h]

/-- A bit of the upper part. -/
theorem getLsbD_append_high {a b : Nat} (x : BitVec a) (y : BitVec b) (i : Nat) (h : b ≤ i) :
    (x ++ y).getLsbD i = x.getLsbD (i - b) := by
  simp [BitVec.getLsbD_append, show ¬i < b by omega]

/-- The bit of a one-bit part. -/
theorem getLsbD_ofBool_zero (b : Bool) : (BitVec.ofBool b).getLsbD 0 = b := by cases b <;> rfl

/-! ### The bytes of a word -/

/-- The bytes of a word, put together again, are the word. -/
@[simp] theorem wordOfBytes_byteOfWord (w : Word) :
    wordOfBytes (byteOfWord w 0) (byteOfWord w 1) (byteOfWord w 2) (byteOfWord w 3) = w := by
  unfold wordOfBytes byteOfWord
  apply BitVec.eq_of_getLsbD_eq
  intro i hi
  simp only [BitVec.getLsbD_append, BitVec.getLsbD_extractLsb']
  split
  · next h => simp [h]
  · split
    · next h1 h2 => rw [decide_eq_true h2, Bool.true_and]; congr 1; omega
    · split
      · next h1 h2 h3 => rw [decide_eq_true h3, Bool.true_and]; congr 1; omega
      · next h1 h2 h3 =>
        rw [decide_eq_true (show i - 8 - 8 - 8 < 8 by omega), Bool.true_and]; congr 1; omega

end Sys2Proof
end

