-- ==== Sys2Proof/Laws/State.lean ====
section
/-! SUPPORT. One lemma per field per update of `State`, so that no proof unfolds an update. -/

namespace Sys2Proof.Machine

@[simp] theorem State.advance_regs (s : State) : s.advance.regs = s.regs := rfl
@[simp] theorem State.advance_pc (s : State) : s.advance.pc = s.pc + 4#32 := rfl
@[simp] theorem State.advance_flags (s : State) : s.advance.flags = s.flags := rfl
@[simp] theorem State.advance_mem (s : State) : s.advance.mem = s.mem := rfl
@[simp] theorem State.advance_cfg (s : State) : s.advance.cfg = s.cfg := rfl
@[simp] theorem State.advance_mulDraws (s : State) : s.advance.mulDraws = s.mulDraws := rfl

@[simp] theorem State.withFlags_regs (s : State) (f : Flags) : (s.withFlags f).regs = s.regs := rfl
@[simp] theorem State.withFlags_pc (s : State) (f : Flags) : (s.withFlags f).pc = s.pc := rfl
@[simp] theorem State.withFlags_flags (s : State) (f : Flags) : (s.withFlags f).flags = f := rfl
@[simp] theorem State.withFlags_mem (s : State) (f : Flags) : (s.withFlags f).mem = s.mem := rfl
@[simp] theorem State.withFlags_cfg (s : State) (f : Flags) : (s.withFlags f).cfg = s.cfg := rfl
@[simp] theorem State.withFlags_mulDraws (s : State) (f : Flags) : (s.withFlags f).mulDraws = s.mulDraws := rfl

@[simp] theorem State.withMem_regs (s : State) (m : Memory) : (s.withMem m).regs = s.regs := rfl
@[simp] theorem State.withMem_pc (s : State) (m : Memory) : (s.withMem m).pc = s.pc := rfl
@[simp] theorem State.withMem_flags (s : State) (m : Memory) : (s.withMem m).flags = s.flags := rfl
@[simp] theorem State.withMem_mem (s : State) (m : Memory) : (s.withMem m).mem = m := rfl
@[simp] theorem State.withMem_cfg (s : State) (m : Memory) : (s.withMem m).cfg = s.cfg := rfl
@[simp] theorem State.withMem_mulDraws (s : State) (m : Memory) : (s.withMem m).mulDraws = s.mulDraws := rfl

@[simp] theorem State.setReg_flags (s : State) (r : Reg) (v : Word) : (s.setReg r v).flags = s.flags := by
  unfold State.setReg; split <;> rfl
@[simp] theorem State.setReg_mem (s : State) (r : Reg) (v : Word) : (s.setReg r v).mem = s.mem := by
  unfold State.setReg; split <;> rfl
@[simp] theorem State.setReg_cfg (s : State) (r : Reg) (v : Word) : (s.setReg r v).cfg = s.cfg := by
  unfold State.setReg; split <;> rfl
@[simp] theorem State.setReg_mulDraws (s : State) (r : Reg) (v : Word) : (s.setReg r v).mulDraws = s.mulDraws := by
  unfold State.setReg; split <;> rfl

@[simp] theorem State.setReg_pc (s : State) (r : Reg) (v : Word) :
    (s.setReg r v).pc = if r.toNat < 15 then s.pc else v := by
  unfold State.setReg; split <;> simp_all

@[simp] theorem State.setReg_regPC (s : State) (v : Word) : s.setReg regPC v = { s with pc := v } := rfl

@[simp] theorem State.placeWord_eq (s : State) (w : Word) :
    s.placeWord w = s.withMem (s.mem.store .word s.pc.toNat w) := rfl

@[simp] theorem State.withMulFlags_regs (s : State) (b n z : Bool) : (s.withMulFlags b n z).regs = s.regs := by
  unfold State.withMulFlags; split <;> rfl
@[simp] theorem State.withMulFlags_pc (s : State) (b n z : Bool) : (s.withMulFlags b n z).pc = s.pc := by
  unfold State.withMulFlags; split <;> rfl
@[simp] theorem State.withMulFlags_mem (s : State) (b n z : Bool) : (s.withMulFlags b n z).mem = s.mem := by
  unfold State.withMulFlags; split <;> rfl
@[simp] theorem State.withMulFlags_cfg (s : State) (b n z : Bool) : (s.withMulFlags b n z).cfg = s.cfg := by
  unfold State.withMulFlags; split <;> rfl

@[simp] theorem State.withMulFlags_flags (s : State) (b n z : Bool) :
    (s.withMulFlags b n z).flags =
      if b then multiplyFlags s.flags n z (Config.mulC s.mulDraws) else s.flags := by
  unfold State.withMulFlags; split <;> rfl

@[simp] theorem State.withMulFlags_mulDraws (s : State) (b n z : Bool) :
    (s.withMulFlags b n z).mulDraws = if b then s.mulDraws + 1 else s.mulDraws := by
  unfold State.withMulFlags; split <;> rfl

@[simp] theorem State.updateBase_flags (s : State) (ix : Indexing) (rn : Reg) (v : Word) :
    (s.updateBase ix rn v).flags = s.flags := by
  unfold State.updateBase; split <;> simp
@[simp] theorem State.writeBack_flags (s : State) (ix : Indexing) (rn : Reg) (v : Word) :
    (s.writeBack ix rn v).flags = s.flags := by
  unfold State.writeBack; split <;> simp
@[simp] theorem State.loadRegs_flags (m : Memory) (l : List Reg) (a : Word) (s : State) :
    (State.loadRegs m l a s).flags = s.flags := by
  induction l generalizing a s with
  | nil => rfl
  | cons r rest ih => simp [State.loadRegs, ih]
@[simp] theorem State.updateBase_mem (s : State) (ix : Indexing) (rn : Reg) (v : Word) :
    (s.updateBase ix rn v).mem = s.mem := by
  unfold State.updateBase; split <;> simp
@[simp] theorem State.writeBack_mem (s : State) (ix : Indexing) (rn : Reg) (v : Word) :
    (s.writeBack ix rn v).mem = s.mem := by
  unfold State.writeBack; split <;> simp
@[simp] theorem State.loadRegs_mem (m : Memory) (l : List Reg) (a : Word) (s : State) :
    (State.loadRegs m l a s).mem = s.mem := by
  induction l generalizing a s with
  | nil => rfl
  | cons r rest ih => simp [State.loadRegs, ih]
@[simp] theorem State.updateBase_cfg (s : State) (ix : Indexing) (rn : Reg) (v : Word) :
    (s.updateBase ix rn v).cfg = s.cfg := by
  unfold State.updateBase; split <;> simp
@[simp] theorem State.writeBack_cfg (s : State) (ix : Indexing) (rn : Reg) (v : Word) :
    (s.writeBack ix rn v).cfg = s.cfg := by
  unfold State.writeBack; split <;> simp
@[simp] theorem State.loadRegs_cfg (m : Memory) (l : List Reg) (a : Word) (s : State) :
    (State.loadRegs m l a s).cfg = s.cfg := by
  induction l generalizing a s with
  | nil => rfl
  | cons r rest ih => simp [State.loadRegs, ih]
@[simp] theorem State.updateBase_mulDraws (s : State) (ix : Indexing) (rn : Reg) (v : Word) :
    (s.updateBase ix rn v).mulDraws = s.mulDraws := by
  unfold State.updateBase; split <;> simp
@[simp] theorem State.writeBack_mulDraws (s : State) (ix : Indexing) (rn : Reg) (v : Word) :
    (s.writeBack ix rn v).mulDraws = s.mulDraws := by
  unfold State.writeBack; split <;> simp
@[simp] theorem State.loadRegs_mulDraws (m : Memory) (l : List Reg) (a : Word) (s : State) :
    (State.loadRegs m l a s).mulDraws = s.mulDraws := by
  induction l generalizing a s with
  | nil => rfl
  | cons r rest ih => simp [State.loadRegs, ih]

end Sys2Proof.Machine
end

