-- ==== Sys2Proof/Laws/Execute.lean ====
section
/-! SUPPORT. What the shared operations of the meanings can answer: one lemma per operation, which says once when it
gives a next state and which, and when it faults. -/

namespace Sys2Proof.Machine

/-! ### Checks -/

@[simp] theorem raiseIf_eq_none_iff (b : Bool) (f : Fault) : raiseIf b f = none ↔ b = false := by
  cases b <;> simp [raiseIf]

@[simp] theorem raiseIf_eq_some_iff (b : Bool) (f g : Fault) : raiseIf b f = some g ↔ b = true ∧ f = g := by
  cases b <;> simp [raiseIf]

@[simp] theorem firstFault_nil : firstFault [] = none := rfl

@[simp] theorem firstFault_none_cons (l : List (Option Fault)) : firstFault (none :: l) = firstFault l := rfl

@[simp] theorem firstFault_some_cons (f : Fault) (l : List (Option Fault)) :
    firstFault (some f :: l) = some f := rfl

/-- A check in front decides, or the rest does. -/
theorem firstFault_cons (o : Option Fault) (l : List (Option Fault)) :
    firstFault (o :: l) = o.or (firstFault l) := by
  cases o <;> rfl

/-- The checks of a list decide before those appended to it. -/
theorem firstFault_append (l k : List (Option Fault)) :
    firstFault (l ++ k) = (firstFault l).or (firstFault k) := by
  induction l with
  | nil => rfl
  | cons o l ih => cases o <;> simp [ih]

/-- Nothing is raised exactly when every check passes. -/
theorem firstFault_eq_none_iff (l : List (Option Fault)) : firstFault l = none ↔ ∀ o ∈ l, o = none := by
  induction l with
  | nil => simp
  | cons o l ih => cases o <;> simp [ih]

/-- What is raised is one of the checks. -/
theorem mem_of_firstFault_eq_some {l : List (Option Fault)} {f : Fault} (h : firstFault l = some f) :
    some f ∈ l := by
  induction l with
  | nil => cases h
  | cons o l ih =>
    cases o with
    | none => simp [ih h]
    | some g => cases h; simp

/-! ### The skeleton of every instruction -/

/-- `execute` gives a next state in two cases: the condition fails and only the pc advances, or it passes, no check
raises, and the state is the instruction's. -/
theorem State.execute_eq_next_iff (s : State) (c : Cond) (l : List (Option Fault)) (t u : State) :
    s.execute c l t = .next u ↔
      (condPassed c s.flags = false ∧ u = s.advance) ∨
        (condPassed c s.flags = true ∧ firstFault l = none ∧ u = t) := by
  unfold State.execute
  cases hc : condPassed c s.flags
  · simp [eq_comm]
  · cases hf : firstFault l <;> simp [eq_comm]

/-- `execute` faults exactly when the condition passes and a check raises. -/
theorem State.execute_eq_fault_iff (s : State) (c : Cond) (l : List (Option Fault)) (t : State) (f : Fault) :
    s.execute c l t = .fault f ↔ condPassed c s.flags = true ∧ firstFault l = some f := by
  unfold State.execute
  cases hc : condPassed c s.flags
  · simp
  · cases hf : firstFault l <;> simp

/-- With a passing condition and passing checks an instruction completes. -/
theorem State.execute_of_passed {s : State} {c : Cond} {l : List (Option Fault)} {t : State}
    (hc : condPassed c s.flags = true) (hl : firstFault l = none) : s.execute c l t = .next t :=
  (s.execute_eq_next_iff c l t t).2 (.inr ⟨hc, hl, rfl⟩)

/-- An instruction whose condition fails only advances the pc. -/
theorem State.execute_of_not_passed {s : State} {c : Cond} {l : List (Option Fault)} {t : State}
    (hc : condPassed c s.flags = false) : s.execute c l t = .next s.advance :=
  (s.execute_eq_next_iff c l t s.advance).2 (.inl ⟨hc, rfl⟩)

/-- `stopWith` never completes when its condition passes. -/
theorem State.stopWith_eq_next_iff (s : State) (c : Cond) (f : Fault) (u : State) :
    s.stopWith c f = .next u ↔ condPassed c s.flags = false ∧ u = s.advance := by
  unfold State.stopWith
  cases condPassed c s.flags <;> simp [eq_comm]

theorem State.stopWith_eq_fault_iff (s : State) (c : Cond) (f g : Fault) :
    s.stopWith c f = .fault g ↔ condPassed c s.flags = true ∧ f = g := by
  unfold State.stopWith
  cases condPassed c s.flags <;> simp

/-! ### The shared operations -/

/-- An instruction that writes Rd: skipped, or Rd and (with S = 1) the flags are written. -/
theorem State.dataProcess_eq_next_iff (s : State) (c : Cond) (sf : Bool) (rd : Reg) (l : List (Option Fault))
    (r : AluResult) (u : State) :
    s.dataProcess c sf rd l r = .next u ↔
      (condPassed c s.flags = false ∧ u = s.advance) ∨
        (condPassed c s.flags = true ∧ (firstFault l = none ∧ ¬(sf = true ∧ rd = regPC)) ∧
          u = (s.advance.withFlags (if sf then r.flags else s.flags)).setReg rd r.value) := by
  unfold State.dataProcess
  rw [State.execute_eq_next_iff]
  simp [firstFault_append, firstFault_cons, pcDestCheck, Option.or_eq_none_iff, raiseIf_eq_none_iff]

/-- A compare: skipped, or the flags are written. -/
theorem State.compare_eq_next_iff (s : State) (c : Cond) (l : List (Option Fault)) (r : AluResult) (u : State) :
    s.compare c l r = .next u ↔
      (condPassed c s.flags = false ∧ u = s.advance) ∨
        (condPassed c s.flags = true ∧ firstFault l = none ∧ u = s.advance.withFlags r.flags) :=
  s.execute_eq_next_iff c l _ u

/-- An access that its two checks let through is aligned and inside memory. -/
theorem firstFault_accessChecks_eq_none_iff (c : Config) (a : Word) (n : Nat) :
    firstFault (accessChecks c a n) = none ↔ a.toNat % n = 0 ∧ inMemory c a n = true := by
  simp [accessChecks, firstFault_cons, alignFault, rangeFault, Option.or_eq_none_iff]

/-- A load: skipped, or the access is allowed, the base is updated and Rd gets the loaded word. -/
theorem State.loadOp_eq_next_iff (s : State) (c : Cond) (l : List (Option Fault)) (k : LoadKind) (ix : Indexing)
    (rn rd : Reg) (off : Word) (u : State) :
    s.loadOp c l k ix rn rd off = .next u ↔
      (condPassed c s.flags = false ∧ u = s.advance) ∨
        (condPassed c s.flags = true ∧
          (firstFault l = none ∧ (s.transferAddress ix rn off).toNat % k.width.bytes = 0 ∧
            inMemory s.cfg (s.transferAddress ix rn off) k.width.bytes = true) ∧
          u = (s.advance.updateBase ix rn (s.moved ix rn off)).setReg rd
            (s.mem.load k (s.transferAddress ix rn off).toNat)) := by
  unfold State.loadOp
  rw [State.execute_eq_next_iff, firstFault_append, Option.or_eq_none_iff, firstFault_accessChecks_eq_none_iff]

/-- A store: skipped, or the access is allowed, the base is updated and memory holds the low bytes of Rd. -/
theorem State.storeOp_eq_next_iff (s : State) (c : Cond) (l : List (Option Fault)) (w : Width) (ix : Indexing)
    (rn rd : Reg) (off : Word) (u : State) :
    s.storeOp c l w ix rn rd off = .next u ↔
      (condPassed c s.flags = false ∧ u = s.advance) ∨
        (condPassed c s.flags = true ∧
          (firstFault l = none ∧ (s.transferAddress ix rn off).toNat % w.bytes = 0 ∧
            inMemory s.cfg (s.transferAddress ix rn off) w.bytes = true) ∧
          u = (s.advance.updateBase ix rn (s.moved ix rn off)).withMem
            (s.mem.store w (s.transferAddress ix rn off).toNat (s.reg rd))) := by
  unfold State.storeOp
  rw [State.execute_eq_next_iff, firstFault_append, Option.or_eq_none_iff, firstFault_accessChecks_eq_none_iff]

/-- A swap: skipped, or the access is allowed, memory holds Rm and Rd the loaded word. -/
theorem State.swapOp_eq_next_iff (s : State) (c : Cond) (l : List (Option Fault)) (k : LoadKind) (rn rd rm : Reg)
    (u : State) :
    s.swapOp c l k rn rd rm = .next u ↔
      (condPassed c s.flags = false ∧ u = s.advance) ∨
        (condPassed c s.flags = true ∧
          ((firstFault l = none ∧ swapCheck rn rd rm = none) ∧ (s.reg rn).toNat % k.width.bytes = 0 ∧
            inMemory s.cfg (s.reg rn) k.width.bytes = true) ∧
          u = (s.advance.withMem (s.mem.store k.width (s.reg rn).toNat (s.reg rm))).setReg rd
            (s.mem.load k (s.reg rn).toNat)) := by
  unfold State.swapOp
  rw [State.execute_eq_next_iff, firstFault_append, firstFault_append, Option.or_eq_none_iff, Option.or_eq_none_iff,
    firstFault_accessChecks_eq_none_iff]
  simp [firstFault_cons]

/-- A multiply with a 32-bit result: skipped, or Rd and (with S = 1) N, Z and C are written and one draw is taken. -/
theorem State.mul32_eq_next_iff (s : State) (c : Cond) (sf : Bool) (o : Option Fault) (rd : Reg) (v : Word)
    (u : State) :
    s.mul32 c sf o rd v = .next u ↔
      (condPassed c s.flags = false ∧ u = s.advance) ∨
        (condPassed c s.flags = true ∧ o = none ∧
          u = (s.advance.withMulFlags sf v.msb (v == 0#32)).setReg rd v) := by
  unfold State.mul32
  rw [State.execute_eq_next_iff]
  cases o <;> simp

/-- A long multiply: skipped, or admitted, RdHi and RdLo (and with S = 1 N, Z and C) are written. -/
theorem State.mul64_eq_next_iff (s : State) (c : Cond) (sf : Bool) (rdHi rdLo rs rm : Reg) (p : BitVec 64)
    (u : State) :
    s.mul64 c sf rdHi rdLo rs rm p = .next u ↔
      (condPassed c s.flags = false ∧ u = s.advance) ∨
        (condPassed c s.flags = true ∧ (s.cfg.admitLongMul = true ∧ longMulCheck rdHi rdLo rs rm = none) ∧
          u = ((s.advance.withMulFlags sf p.msb (p == 0#64)).setReg rdHi (p.extractLsb' 32 32)).setReg rdLo
            (p.extractLsb' 0 32)) := by
  unfold State.mul64
  rw [State.execute_eq_next_iff]
  simp [firstFault_cons, admitCheck, Option.or_eq_none_iff]

/-- An MSR: skipped, or admitted with bit 22 = 0, and the flags are written. -/
theorem State.msrOp_eq_next_iff (s : State) (c : Cond) (pd : Bool) (l : List (Option Fault)) (v : Word) (u : State) :
    s.msrOp c pd l v = .next u ↔
      (condPassed c s.flags = false ∧ u = s.advance) ∨
        (condPassed c s.flags = true ∧ ((s.cfg.admitPsr = true ∧ pd = false) ∧ firstFault l = none) ∧
          u = s.advance.withFlags (flagsOfPsr v)) := by
  unfold State.msrOp
  rw [State.execute_eq_next_iff, firstFault_append]
  simp [firstFault_cons, admitCheck, spsrCheck, Option.or_eq_none_iff]

/-! ### What the operand checks let through -/

/-- The operands of an immediate offset pass exactly when they are well formed (44_data_transfer.md R248). -/
theorem transferImmCheck_eq_none_iff (ix : Indexing) (rn rd : Reg) (b : Bool) :
    transferImmCheck ix rn rd b = none ↔ baseOk ix rn rd = true ∧ (b && rd == regPC) = false := by
  obtain ⟨p, u, w⟩ := ix
  simp only [transferImmCheck, raiseIf_eq_none_iff, baseOk, baseUpdated, Indexing.updatesBase]
  cases p <;> cases w <;> cases b <;> simp

/-- The operands of a register offset pass exactly when they are well formed (R248). -/
theorem transferRegCheck_eq_none_iff (ix : Indexing) (rn rd rm : Reg) (b : Bool) :
    transferRegCheck ix rn rd rm b = none ↔
      (baseOk ix rn rd = true ∧ indexOk ix rn rm = true) ∧ (b && rd == regPC) = false := by
  obtain ⟨p, u, w⟩ := ix
  simp only [transferRegCheck, raiseIf_eq_none_iff, baseOk, baseUpdated, Indexing.updatesBase, indexOk]
  cases p <;> cases w <;> cases b <;> simp <;> tauto

/-- The operands of MUL and MLA pass exactly when Rd is not Rm and no register is R15 (43_multiply.md R223). -/
theorem mulCheck_eq_none_iff (rd rm : Reg) (rs : List Reg) :
    mulCheck rd rm rs = none ↔ rd ≠ rm ∧ ∀ r ∈ rs, r ≠ regPC := by
  simp [mulCheck, anyPc]

/-- The operands of a long multiply pass exactly when they are well formed (R225). -/
theorem longMulCheck_eq_none_iff (rdHi rdLo rs rm : Reg) :
    longMulCheck rdHi rdLo rs rm = none ↔ longMulOk rdHi rdLo rs rm = true := by
  simp [longMulCheck, longMulOk, anyPc, noPc]
  tauto

/-- The operands of a swap pass exactly when they are well formed (44_data_transfer.md R252). -/
theorem swapCheck_eq_none_iff (rn rd rm : Reg) : swapCheck rn rd rm = none ↔ swapOk rn rd rm = true := by
  simp [swapCheck, swapOk, anyPc, noPc]
  tauto

/-- The operands of a block transfer pass exactly when they are well formed and, in a store, R15 is not in the list
(45_block_transfer.md R290). -/
theorem blockCheck_eq_none_iff (ix : Indexing) (rn : Reg) (list : BitVec 16) (store : Bool) :
    blockCheck ix rn list store = none ↔ blockOk ix rn list = true ∧ (store && list.getLsbD 15) = false := by
  simp only [blockCheck, raiseIf_eq_none_iff, blockOk]
  cases ix.w <;> cases store <;> cases list.getLsbD rn.toNat <;> cases list.getLsbD 15 <;> simp

/-! ### Register lists and block transfers -/

/-- A register is in the list exactly when its bit is set (45_block_transfer.md R280). -/
theorem mem_registersOf (list : BitVec 16) (r : Reg) : r ∈ registersOf list ↔ list.getLsbD r.toNat = true := by
  unfold registersOf
  simp only [List.mem_filterMap, List.mem_range]
  constructor
  · rintro ⟨i, hi, h⟩
    split at h
    · next hb =>
      cases h
      simpa [BitVec.toNat_ofNat, Nat.mod_eq_of_lt hi] using hb
    · cases h
  · intro h
    refine ⟨r.toNat, r.isLt, ?_⟩
    simp [h]

/-- The registers of a list stand in ascending order, so none stands twice (R285). -/
theorem registersOf_sorted (list : BitVec 16) : (registersOf list).Pairwise (· < ·) := by
  unfold registersOf
  rw [List.pairwise_filterMap]
  refine List.Pairwise.imp_of_mem ?_ List.pairwise_lt_range
  intro a b ha hb hab x hx y hy
  simp only [List.mem_range] at ha hb
  split at hx <;> split at hy <;> simp_all
  subst hx hy
  simp only [BitVec.lt_def, BitVec.toNat_ofNat]
  omega

/-- The range checks of a block transfer pass exactly when every word is inside memory. -/
theorem firstFault_blockRangeChecks_eq_none_iff (c : Config) (l : List Reg) (a : Word) :
    firstFault (blockRangeChecks c l a) = none ↔
      ∀ k < l.length, inMemory c (a + BitVec.ofNat 32 (4 * k)) 4 = true := by
  induction l generalizing a with
  | nil => simp [blockRangeChecks]
  | cons r rest ih =>
    rw [blockRangeChecks, firstFault_cons, Option.or_eq_none_iff, ih]
    simp only [rangeFault, raiseIf_eq_none_iff, Bool.not_eq_false', List.length_cons]
    have hk : ∀ k, a + BitVec.ofNat 32 (4 * (k + 1)) = a + 4#32 + BitVec.ofNat 32 (4 * k) := by
      intro k
      rw [Nat.mul_add, Nat.add_comm, BitVec.ofNat_add, ← BitVec.add_assoc]
    constructor
    · rintro ⟨h0, h⟩ k hlt
      cases k with
      | zero => simpa using h0
      | succ k => rw [hk]; exact h k (by omega)
    · intro h
      exact ⟨by simpa using h 0 (by omega), fun k hlt => by rw [← hk]; exact h (k + 1) (by omega)⟩

end Sys2Proof.Machine
end

