-- ==== Sys2Proof/Laws/Memory.lean ====
section
/-! SUPPORT. The laws of memory: a read after a write, and that every write keeps the canonical form. -/

namespace Sys2Proof.Machine

theorem Memory.read_place (m : Memory) (a : Nat) (b : Byte) (x : Nat)
    (h : ∀ c ∈ m, c.1 ≠ a) : (m.place a b).read x = if x = a then b else m.read x := by
  induction m with
  | nil => simp [Memory.place, Memory.read, @eq_comm _ x a]
  | cons c rest ih =>
    obtain ⟨k, v⟩ := c
    have hk : k ≠ a := h (k, v) (by simp)
    have hr := ih (fun c hc => h c (by simp [hc]))
    unfold Memory.place
    split
    · by_cases hx : x = a
      · simp [Memory.read, hx]
      · simp [Memory.read, hx, Ne.symm hx]
    · by_cases hx : k = x
      · simp [Memory.read, hx, hx ▸ hk]
      · simp [Memory.read, hx, hr]

theorem Memory.read_clear (m : Memory) (a x : Nat) :
    (m.clear a).read x = if x = a then unwrittenByte else m.read x := by
  induction m with
  | nil => simp [Memory.clear, Memory.read]
  | cons c rest ih =>
    obtain ⟨k, v⟩ := c
    unfold Memory.clear at ih ⊢
    by_cases hk : k = a
    · subst hk
      by_cases hx : x = k
      · subst hx; simpa using ih
      · simp [ih, hx, Memory.read, Ne.symm hx]
    · by_cases hx : k = x
      · subst hx; simp [Memory.read, hk]
      · simp [Memory.read, hk, hx, ih]

/-- A byte reads as what was written to it, and every other byte reads as before. -/
theorem Memory.read_write (m : Memory) (a : Nat) (b : Byte) (x : Nat) :
    (m.write a b).read x = if x = a then b else m.read x := by
  unfold Memory.write
  split
  · next h => rw [Memory.read_clear, h]
  · rw [Memory.read_place, Memory.read_clear]
    · by_cases hx : x = a <;> simp [hx]
    · intro c hc
      simp [Memory.clear] at hc
      exact hc.2

@[simp] theorem Memory.read_write_self (m : Memory) (a : Nat) (b : Byte) : (m.write a b).read a = b := by
  simp [Memory.read_write]

theorem Memory.read_write_ne {x a : Nat} (h : x ≠ a) (m : Memory) (b : Byte) : (m.write a b).read x = m.read x := by
  simp [Memory.read_write, h]

/-! ### The canonical form -/

theorem Memory.wf_nil : Memory.wf [] := by simp [Memory.wf]

theorem Memory.mem_place {c : Host.Cell} (m : Memory) (a : Nat) (b : Byte) :
    c ∈ m.place a b ↔ c = (a, b) ∨ c ∈ m := by
  induction m with
  | nil => simp [Memory.place]
  | cons d rest ih =>
    unfold Memory.place
    split
    · simp
    · simp only [List.mem_cons, ih]; tauto

theorem Memory.mem_clear {c : Host.Cell} (m : Memory) (a : Nat) : c ∈ m.clear a ↔ c ∈ m ∧ c.1 ≠ a := by
  simp [Memory.clear]

theorem Memory.place_sorted (m : Memory) (a : Nat) (b : Byte) (h : m.Pairwise (fun x y => x.1 < y.1))
    (ha : ∀ c ∈ m, c.1 ≠ a) : (m.place a b).Pairwise (fun x y => x.1 < y.1) := by
  induction m with
  | nil => simp [Memory.place]
  | cons c rest ih =>
    obtain ⟨k, v⟩ := c
    rw [List.pairwise_cons] at h
    unfold Memory.place
    split
    · next hlt =>
      refine List.Pairwise.cons ?_ (List.Pairwise.cons h.1 h.2)
      intro d hd
      rcases List.mem_cons.1 hd with rfl | hd
      · exact hlt
      · exact Nat.lt_trans hlt (h.1 d hd)
    · next hge =>
      refine List.Pairwise.cons ?_ (ih h.2 (fun c hc => ha c (by simp [hc])))
      intro d hd
      rcases (Memory.mem_place rest a b).1 hd with rfl | hd
      · have : k ≠ a := ha (k, v) (by simp)
        simp only at *; omega
      · exact h.1 d hd

/-- A write keeps the canonical form. -/
theorem Memory.wf_write {m : Memory} (h : m.wf) (a : Nat) (b : Byte) : (m.write a b).wf := by
  have hs : (m.clear a).Pairwise (fun x y => x.1 < y.1) := h.1.filter _
  have hu : ∀ c ∈ m.clear a, c.2 ≠ unwrittenByte := fun c hc => h.2 c ((Memory.mem_clear m a).1 hc).1
  unfold Memory.write
  split
  · exact ⟨hs, hu⟩
  · next hb =>
    refine ⟨Memory.place_sorted _ a b hs (fun c hc => ((Memory.mem_clear m a).1 hc).2), ?_⟩
    intro c hc
    rcases (Memory.mem_place _ a b).1 hc with rfl | hc
    · exact hb
    · exact hu c hc

/-- A store keeps the canonical form. -/
theorem Memory.wf_store {m : Memory} (h : m.wf) (w : Width) (a : Nat) (v : Word) : (m.store w a v).wf := by
  cases w <;> simp only [Memory.store] <;> repeat' apply Memory.wf_write
  all_goals exact h

/-- The stores of an STM keep the canonical form. -/
theorem State.wf_storeRegs (s : State) (l : List Reg) (a : Word) {m : Memory} (h : m.wf) :
    (s.storeRegs l a m).wf := by
  induction l generalizing a m with
  | nil => exact h
  | cons r rest ih => exact ih _ (Memory.wf_store h _ _ _)

/-- The memory of the reset state is in its canonical form. -/
theorem State.reset_mem_wf : State.reset.mem.wf := Memory.wf_nil

/-! ### What a store leaves -/

/-- A store leaves every byte outside its own as it was. -/
theorem Memory.read_store_of_not_mem (m : Memory) (w : Width) (a : Nat) (v : Word) (x : Nat)
    (h : x < a ∨ a + w.bytes ≤ x) : (m.store w a v).read x = m.read x := by
  cases w <;> simp only [Width.bytes] at h <;> simp only [Memory.store]
  · rw [Memory.read_write_ne (by omega)]
  · rw [Memory.read_write_ne (by omega), Memory.read_write_ne (by omega)]
  · rw [Memory.read_write_ne (by omega), Memory.read_write_ne (by omega), Memory.read_write_ne (by omega),
      Memory.read_write_ne (by omega)]

/-- Byte `k` of a store reads as byte `k` of the stored word. -/
theorem Memory.read_store_of_lt (m : Memory) (w : Width) (a : Nat) (v : Word) (k : Nat) (h : k < w.bytes) :
    (m.store w a v).read (a + k) = byteOfWord v k := by
  cases w <;> simp only [Width.bytes] at h <;> simp only [Memory.store, Memory.read_write]
  · obtain rfl : k = 0 := by omega
    simp
  · obtain rfl | rfl : k = 0 ∨ k = 1 := by omega
    all_goals simp
  · obtain rfl | rfl | rfl | rfl : k = 0 ∨ k = 1 ∨ k = 2 ∨ k = 3 := by omega
    all_goals simp

/-- The cells a write may add lie at its address. -/
theorem Memory.mem_write {c : Host.Cell} {m : Memory} {a : Nat} {b : Byte} (h : c ∈ m.write a b) :
    c.1 = a ∨ c ∈ m := by
  unfold Memory.write at h
  split at h
  · exact .inr ((Memory.mem_clear m a).1 h).1
  · rcases (Memory.mem_place _ a b).1 h with rfl | h
    · exact .inl rfl
    · exact .inr ((Memory.mem_clear m a).1 h).1

/-- The cells a store may add lie in its bytes. -/
theorem Memory.mem_store {c : Host.Cell} {m : Memory} {w : Width} {a : Nat} {v : Word} (h : c ∈ m.store w a v) :
    (a ≤ c.1 ∧ c.1 < a + w.bytes) ∨ c ∈ m := by
  cases w <;> simp only [Memory.store, Width.bytes] at h ⊢
  · rcases Memory.mem_write h with h | h
    · exact .inl (by omega)
    · exact .inr h
  · rcases Memory.mem_write h with h | h
    · exact .inl (by omega)
    · rcases Memory.mem_write h with h | h
      · exact .inl (by omega)
      · exact .inr h
  · rcases Memory.mem_write h with h | h
    · exact .inl (by omega)
    · rcases Memory.mem_write h with h | h
      · exact .inl (by omega)
      · rcases Memory.mem_write h with h | h
        · exact .inl (by omega)
        · rcases Memory.mem_write h with h | h
          · exact .inl (by omega)
          · exact .inr h

/-- The stores of an STM leave every byte outside their words as it was. -/
theorem State.read_storeRegs_of_not_mem (s : State) (l : List Reg) (a : Word) (m : Memory) (x : Nat)
    (h : ∀ k < l.length, x < (a + BitVec.ofNat 32 (4 * k)).toNat ∨ (a + BitVec.ofNat 32 (4 * k)).toNat + 4 ≤ x) :
    (s.storeRegs l a m).read x = m.read x := by
  induction l generalizing a m with
  | nil => rfl
  | cons r rest ih =>
    rw [State.storeRegs, ih]
    · exact Memory.read_store_of_not_mem _ _ _ _ _ (by simpa [Width.bytes] using h 0 (by simp))
    · intro k hk
      have := h (k + 1) (by simpa using hk)
      rwa [Nat.mul_add, Nat.add_comm, BitVec.ofNat_add, ← BitVec.add_assoc] at this

/-- Byte `j` of the word at `a + 4k` after the stores of an STM is byte `j` of the `k`-th register of its list. -/
theorem State.read_storeRegs_getElem (s : State) (l : List Reg) (hl : l.length ≤ 16) (a : Word)
    (ha : a.toNat % 4 = 0) (m : Memory) (k : Nat) (hk : k < l.length) (j : Nat) (hj : j < 4) :
    (s.storeRegs l a m).read ((a + BitVec.ofNat 32 (4 * k)).toNat + j) = byteOfWord (s.reg l[k]) j := by
  induction l generalizing a m k with
  | nil => simp at hk
  | cons r rest ih =>
    simp only [List.length_cons] at hl hk
    cases k with
    | zero =>
      rw [State.storeRegs, State.read_storeRegs_of_not_mem, Nat.mul_zero]
      · simpa using Memory.read_store_of_lt m .word a.toNat (s.reg r) j hj
      · intro i hi
        simp only [BitVec.toNat_add, BitVec.toNat_ofNat]
        omega
    | succ k =>
      rw [State.storeRegs, Nat.mul_add, Nat.add_comm (4 * k), BitVec.ofNat_add, ← BitVec.add_assoc]
      exact ih (by omega) _ (by simp only [BitVec.toNat_add, BitVec.toNat_ofNat]; omega) _ _ (by omega)

end Sys2Proof.Machine
end

