-- ==== Sys2Proof/Laws/Registers.lean ====
section
/-! SUPPORT. What a register read gives after each update (10_state.md R20, R25, R26). -/

namespace Sys2Proof.Machine

theorem reg_lt_fifteen_iff (r : Reg) : r.toNat < 15 ↔ r ≠ regPC := by
  revert r; decide

/-- R15 reads as pc + 8. -/
@[simp] theorem State.reg_regPC (s : State) : s.reg regPC = s.pc + 8#32 := rfl

/-- A register other than R15 reads as its home. -/
theorem State.reg_of_ne {r : Reg} (h : r ≠ regPC) (s : State) :
    s.reg r = s.regs[r.toNat]'((reg_lt_fifteen_iff r).2 h) := by
  simp [State.reg, (reg_lt_fifteen_iff r).2 h]

/-- Reads of the registers R0 to R14 depend on `regs` alone. -/
theorem State.reg_congr {s t : State} {r : Reg} (h : r ≠ regPC) (he : s.regs = t.regs) : s.reg r = t.reg r := by
  simp [State.reg_of_ne h, he]

/-- A write of a register other than R15 is read back. -/
theorem State.reg_setReg_self {r : Reg} (h : r ≠ regPC) (s : State) (v : Word) : (s.setReg r v).reg r = v := by
  have hr := (reg_lt_fifteen_iff r).2 h
  simp [State.reg, State.setReg, hr]

/-- A write of one register leaves every other register but R15 as it was. -/
theorem State.reg_setReg_ne {r q : Reg} (hq : q ≠ regPC) (h : q ≠ r) (s : State) (v : Word) :
    (s.setReg r v).reg q = s.reg q := by
  have hr := (reg_lt_fifteen_iff q).2 hq
  have hne : r.toNat ≠ q.toNat := fun e => h (BitVec.eq_of_toNat_eq e.symm)
  unfold State.setReg
  split
  · simp [State.reg, hr, Vector.getElem_set_ne _ _ hne]
  · simp [State.reg, hr]

/-- What a read gives after a write, for every pair of registers but a read of R15. -/
theorem State.reg_setReg {q : Reg} (hq : q ≠ regPC) (r : Reg) (s : State) (v : Word) :
    (s.setReg r v).reg q = if q = r then v else s.reg q := by
  split
  · next h => exact h ▸ State.reg_setReg_self hq s v
  · next h => exact State.reg_setReg_ne hq h s v

/-- The pc after a register write. -/
theorem State.setReg_pc_of_ne {r : Reg} (h : r ≠ regPC) (s : State) (v : Word) : (s.setReg r v).pc = s.pc := by
  simp [(reg_lt_fifteen_iff r).2 h]

theorem State.reg_advance {r : Reg} (h : r ≠ regPC) (s : State) : s.advance.reg r = s.reg r :=
  State.reg_congr h rfl

theorem State.reg_withFlags {r : Reg} (s : State) (f : Flags) : (s.withFlags f).reg r = s.reg r := rfl

theorem State.reg_withMem {r : Reg} (s : State) (m : Memory) : (s.withMem m).reg r = s.reg r := rfl

theorem State.reg_withMulFlags {r : Reg} (s : State) (b n z : Bool) : (s.withMulFlags b n z).reg r = s.reg r := by
  unfold State.withMulFlags; split <;> rfl

/-- A read after a base update. -/
theorem State.reg_updateBase {q : Reg} (hq : q ≠ regPC) (ix : Indexing) (rn : Reg) (s : State) (v : Word) :
    (s.updateBase ix rn v).reg q = if baseUpdated ix ∧ q = rn then v else s.reg q := by
  unfold State.updateBase
  by_cases h : baseUpdated ix <;> simp [h, State.reg_setReg hq]

/-- A read after the write-back of a block transfer. -/
theorem State.reg_writeBack {q : Reg} (hq : q ≠ regPC) (ix : Indexing) (rn : Reg) (s : State) (v : Word) :
    (s.writeBack ix rn v).reg q = if ix.w ∧ q = rn then v else s.reg q := by
  unfold State.writeBack
  by_cases h : ix.w <;> simp [h, State.reg_setReg hq]

/-- The pc after a register write, for every register. -/
theorem State.setReg_pc_eq (s : State) (r : Reg) (v : Word) : (s.setReg r v).pc = if r = regPC then v else s.pc := by
  simp only [State.setReg_pc, reg_lt_fifteen_iff]
  split <;> simp_all

/-- The pc after a base update. -/
theorem State.updateBase_pc (s : State) (ix : Indexing) (rn : Reg) (v : Word) :
    (s.updateBase ix rn v).pc = if baseUpdated ix = true ∧ rn = regPC then v else s.pc := by
  unfold State.updateBase
  cases baseUpdated ix <;> simp [-State.setReg_pc, State.setReg_pc_eq]

/-- The pc after the write-back of a block transfer. -/
theorem State.writeBack_pc (s : State) (ix : Indexing) (rn : Reg) (v : Word) :
    (s.writeBack ix rn v).pc = if ix.w = true ∧ rn = regPC then v else s.pc := by
  unfold State.writeBack
  cases ix.w <;> simp [-State.setReg_pc, State.setReg_pc_eq]

/-- `loadRegs` leaves the pc when R15 is not in its list. -/
theorem State.loadRegs_pc_of_not_mem (m : Memory) (l : List Reg) (h : regPC ∉ l) (a : Word) (s : State) :
    (State.loadRegs m l a s).pc = s.pc := by
  induction l generalizing a s with
  | nil => rfl
  | cons r rest ih =>
    simp only [List.mem_cons, not_or] at h
    rw [State.loadRegs, ih h.2, State.setReg_pc_eq, if_neg (fun e => h.1 e.symm)]

/-- `loadRegs` leaves a register outside its list as it was. -/
theorem State.reg_loadRegs_of_not_mem {q : Reg} (hq : q ≠ regPC) (m : Memory) (l : List Reg) (h : q ∉ l) (a : Word)
    (s : State) : (State.loadRegs m l a s).reg q = s.reg q := by
  induction l generalizing a s with
  | nil => rfl
  | cons r rest ih =>
    simp only [List.mem_cons, not_or] at h
    rw [State.loadRegs, ih h.2, State.reg_setReg_ne hq h.1]

/-- The `k`-th register of the list of `loadRegs` gets the word at `a + 4k`. -/
theorem State.reg_loadRegs_getElem (m : Memory) (l : List Reg) (hl : l.Nodup) (a : Word) (s : State) (k : Nat)
    (hk : k < l.length) (hr : l[k] ≠ regPC) :
    (State.loadRegs m l a s).reg l[k] = m.readWord (a + BitVec.ofNat 32 (4 * k)).toNat := by
  induction l generalizing a s k with
  | nil => simp at hk
  | cons r rest ih =>
    rw [List.nodup_cons] at hl
    cases k with
    | zero =>
      simp only [List.getElem_cons_zero] at hr ⊢
      rw [State.loadRegs, State.reg_loadRegs_of_not_mem hr m rest hl.1, State.reg_setReg_self hr]
      simp
    | succ k =>
      simp only [List.getElem_cons_succ] at hr ⊢
      rw [State.loadRegs, ih hl.2 _ _ _ (by simpa using hk) hr, Nat.mul_add, Nat.add_comm (4 * k), BitVec.ofNat_add,
        ← BitVec.add_assoc]

/-- When R15 is the `k`-th register of the list, `loadRegs` leaves the word at `a + 4k` in the pc. -/
theorem State.loadRegs_pc_getElem (m : Memory) (l : List Reg) (hl : l.Nodup) (a : Word) (s : State) (k : Nat)
    (hk : k < l.length) (hr : l[k] = regPC) :
    (State.loadRegs m l a s).pc = m.readWord (a + BitVec.ofNat 32 (4 * k)).toNat := by
  induction l generalizing a s k with
  | nil => simp at hk
  | cons r rest ih =>
    rw [List.nodup_cons] at hl
    cases k with
    | zero =>
      simp only [List.getElem_cons_zero] at hr ⊢
      subst hr
      rw [State.loadRegs, State.loadRegs_pc_of_not_mem m rest hl.1, State.setReg_pc_eq, if_pos rfl]
      simp
    | succ k =>
      simp only [List.getElem_cons_succ] at hr ⊢
      rw [State.loadRegs, ih hl.2 _ _ _ (by simpa using hk) hr, Nat.mul_add, Nat.add_comm (4 * k), BitVec.ofNat_add,
        ← BitVec.add_assoc]

end Sys2Proof.Machine
end

