-- ==== Sys2Proof/Tests/Slice0.lean ====
section
/-! SUPPORT. The model's own tests: ill-formed terms the checks refuse, the word of every constructor written out from
the format table of 30_encoding.md R80, one step of the instructions on the spec's test vectors, and a witness for the
hypotheses of every statement that has some. -/

namespace Sys2Proof.Tests

open Machine Claims

/-! ### Helpers -/

/-- The reset state with pc 0x100, the given registers and flags, and words stored at the given addresses. -/
def start (regs : List (Reg × Word)) (f : Flags) (mem : List (Nat × Word)) : State :=
  regs.foldl (fun s p => s.setReg p.1 p.2)
    { State.reset with pc := 0x100, flags := f, mem := mem.foldl (fun m p => m.store .word p.1 p.2) [] }

/-- The flags N, Z, C and V from digits 0 and 1. -/
def fl (n z c v : Nat) : Flags := ⟨n == 1, z == 1, c == 1, v == 1⟩

/-- The words of memory the vectors of 97_test_vectors.md sections 2.9 and 2.10 start from. -/
def table : List (Nat × Word) :=
  [(0xFFC, 0xCAFEBABE), (0x1000, 0x11223344), (0x1004, 0x55667788), (0x1008, 0x99AABBCC), (0x100C, 0xDDEEFF00)]

/-- The words of memory the vectors of section 2.11 start from. -/
def blockTable : List (Nat × Word) :=
  [(0x1FF0, 0xA0), (0x1FF4, 0xA4), (0x1FF8, 0xA8), (0x1FFC, 0xAC), (0x2000, 0xB0), (0x2004, 0xB4)]

/-- Register `r`, the pc and the flags after one step that fetches the word `w`. -/
def ran (w : Nat) (s : State) (r : Reg) : Option (Word × Word × Flags) :=
  match step (s.withFetchWord 32 w) with
  | .next t => some (t.reg r, t.pc, t.flags)
  | _ => none

/-- The word at `a` after one step that fetches the word `w`. -/
def stored (w : Nat) (s : State) (a : Nat) : Option Word :=
  match step (s.withFetchWord 32 w) with
  | .next t => some (t.mem.readWord a)
  | _ => none

/-- The fault of an outcome. -/
def faultOf : Result → Option Fault
  | .fault f => some f
  | _ => none

/-- The outcome is a next state. -/
def isNext : Result → Bool
  | .next _ => true
  | _ => false

/-- The fault of one step that fetches the word `w`. -/
def stops (w : Nat) (s : State) : Option Fault := faultOf (step (s.withFetchWord 32 w))

/-- What a next state is, read back from `isNext`. -/
theorem exists_of_isNext {r : Result} (h : isNext r = true) : ∃ t, r = .next t := by
  cases r with
  | next t => exact ⟨t, rfl⟩
  | fault f => cases h
  | refused f => cases h

/-! ### The word of every constructor, bit by bit from the format table of R80 -/

/-- Data Processing (imm): `Cond 001 OpCode S Rn Rd Rotate Imm`. -/
def immWords : List (Word × Instr) := [
  (0b0011_001_0000_0_0001_0110_0010_10100101#32, .andImm .cc false 1 6 ⟨2, 0xa5⟩),
  (0b0110_001_0001_1_0010_0111_0111_10110110#32, .eorImm .vs true 2 7 ⟨7, 0xb6⟩),
  (0b1001_001_0010_0_0011_1000_1100_11000111#32, .subImm .ls false 3 8 ⟨12, 0xc7⟩),
  (0b1100_001_0011_1_0100_1001_0001_11011000#32, .rsbImm .gt true 4 9 ⟨1, 0xd8⟩),
  (0b1111_001_0100_0_0101_1010_0110_11101001#32, .addImm .nv false 5 10 ⟨6, 0xe9⟩),
  (0b0010_001_0101_1_0110_1011_1011_11111010#32, .adcImm .cs true 6 11 ⟨11, 0xfa⟩),
  (0b0101_001_0110_0_0111_1100_0000_00001011#32, .sbcImm .pl false 7 12 ⟨0, 0xb⟩),
  (0b1000_001_0111_1_1000_1101_0101_00011100#32, .rscImm .hi true 8 13 ⟨5, 0x1c⟩),
  (0b1011_001_1000_1_1001_1110_1010_00101101#32, .tstImm .lt 9 14 ⟨10, 0x2d⟩),
  (0b1110_001_1001_1_1010_1111_1111_00111110#32, .teqImm .al 10 15 ⟨15, 0x3e⟩),
  (0b0001_001_1010_1_1011_0000_0100_01001111#32, .cmpImm .ne 11 0 ⟨4, 0x4f⟩),
  (0b0100_001_1011_1_1100_0001_1001_01100000#32, .cmnImm .mi 12 1 ⟨9, 0x60⟩),
  (0b0111_001_1100_0_1101_0010_1110_01110001#32, .orrImm .vc false 13 2 ⟨14, 0x71⟩),
  (0b1010_001_1101_1_1110_0011_0011_10000010#32, .movImm .ge true 14 3 ⟨3, 0x82⟩),
  (0b1101_001_1110_0_1111_0100_1000_10010011#32, .bicImm .le false 15 4 ⟨8, 0x93⟩),
  (0b0000_001_1111_1_0000_0101_1101_10100100#32, .mvnImm .eq true 0 5 ⟨13, 0xa4⟩)]

theorem test_decode_immWords : ∀ p ∈ immWords, decode p.1 = .instr p.2 := by decide

/-- Data Processing (reg3): `Cond 000 OpCode S Rn Rd Shift LA 0 Rm`. -/
def reg3Words : List (Word × Instr) := [
  (0b0100_000_0000_1_0001_0110_00001_00_0_1011#32, .andReg3 .mi true 1 6 ⟨1, .lsl, 11⟩),
  (0b0111_000_0001_0_0010_0111_01000_01_0_1100#32, .eorReg3 .vc false 2 7 ⟨8, .lsr, 12⟩),
  (0b1010_000_0010_1_0011_1000_01111_10_0_1101#32, .subReg3 .ge true 3 8 ⟨15, .asr, 13⟩),
  (0b1101_000_0011_0_0100_1001_10110_11_0_1110#32, .rsbReg3 .le false 4 9 ⟨22, .ror, 14⟩),
  (0b0000_000_0100_1_0101_1010_11101_00_0_1111#32, .addReg3 .eq true 5 10 ⟨29, .lsl, 15⟩),
  (0b0011_000_0101_0_0110_1011_00100_01_0_0000#32, .adcReg3 .cc false 6 11 ⟨4, .lsr, 0⟩),
  (0b0110_000_0110_1_0111_1100_01011_10_0_0001#32, .sbcReg3 .vs true 7 12 ⟨11, .asr, 1⟩),
  (0b1001_000_0111_0_1000_1101_10010_11_0_0010#32, .rscReg3 .ls false 8 13 ⟨18, .ror, 2⟩),
  (0b1100_000_1000_1_1001_1110_11001_00_0_0011#32, .tstReg3 .gt 9 14 ⟨25, .lsl, 3⟩),
  (0b1111_000_1001_1_1010_1111_00000_01_0_0100#32, .teqReg3 .nv 10 15 ⟨0, .lsr, 4⟩),
  (0b0010_000_1010_1_1011_0000_00111_10_0_0101#32, .cmpReg3 .cs 11 0 ⟨7, .asr, 5⟩),
  (0b0101_000_1011_1_1100_0001_01110_11_0_0110#32, .cmnReg3 .pl 12 1 ⟨14, .ror, 6⟩),
  (0b1000_000_1100_1_1101_0010_10101_00_0_0111#32, .orrReg3 .hi true 13 2 ⟨21, .lsl, 7⟩),
  (0b1011_000_1101_0_1110_0011_11100_01_0_1000#32, .movReg3 .lt false 14 3 ⟨28, .lsr, 8⟩),
  (0b1110_000_1110_1_1111_0100_00011_10_0_1001#32, .bicReg3 .al true 15 4 ⟨3, .asr, 9⟩),
  (0b0001_000_1111_0_0000_0101_01010_11_0_1010#32, .mvnReg3 .ne false 0 5 ⟨10, .ror, 10⟩)]

theorem test_decode_reg3Words : ∀ p ∈ reg3Words, decode p.1 = .instr p.2 := by decide

/-- Data Processing (reg4): `Cond 000 OpCode S Rn Rd Rs 0 LA 1 Rm`. -/
def reg4Words : List (Word × Instr) := [
  (0b0100_000_0000_0_0001_0110_0100_0_01_1_1011#32, .andReg4 .mi false 1 6 ⟨4, .lsr, 11⟩),
  (0b0111_000_0001_1_0010_0111_1001_0_10_1_1100#32, .eorReg4 .vc true 2 7 ⟨9, .asr, 12⟩),
  (0b1010_000_0010_0_0011_1000_1110_0_11_1_1101#32, .subReg4 .ge false 3 8 ⟨14, .ror, 13⟩),
  (0b1101_000_0011_1_0100_1001_0011_0_00_1_1110#32, .rsbReg4 .le true 4 9 ⟨3, .lsl, 14⟩),
  (0b0000_000_0100_0_0101_1010_1000_0_01_1_1111#32, .addReg4 .eq false 5 10 ⟨8, .lsr, 15⟩),
  (0b0011_000_0101_1_0110_1011_1101_0_10_1_0000#32, .adcReg4 .cc true 6 11 ⟨13, .asr, 0⟩),
  (0b0110_000_0110_0_0111_1100_0010_0_11_1_0001#32, .sbcReg4 .vs false 7 12 ⟨2, .ror, 1⟩),
  (0b1001_000_0111_1_1000_1101_0111_0_00_1_0010#32, .rscReg4 .ls true 8 13 ⟨7, .lsl, 2⟩),
  (0b1100_000_1000_1_1001_1110_1100_0_01_1_0011#32, .tstReg4 .gt 9 14 ⟨12, .lsr, 3⟩),
  (0b1111_000_1001_1_1010_1111_0001_0_10_1_0100#32, .teqReg4 .nv 10 15 ⟨1, .asr, 4⟩),
  (0b0010_000_1010_1_1011_0000_0110_0_11_1_0101#32, .cmpReg4 .cs 11 0 ⟨6, .ror, 5⟩),
  (0b0101_000_1011_1_1100_0001_1011_0_00_1_0110#32, .cmnReg4 .pl 12 1 ⟨11, .lsl, 6⟩),
  (0b1000_000_1100_0_1101_0010_0000_0_01_1_0111#32, .orrReg4 .hi false 13 2 ⟨0, .lsr, 7⟩),
  (0b1011_000_1101_1_1110_0011_0101_0_10_1_1000#32, .movReg4 .lt true 14 3 ⟨5, .asr, 8⟩),
  (0b1110_000_1110_0_1111_0100_1010_0_11_1_1001#32, .bicReg4 .al false 15 4 ⟨10, .ror, 9⟩),
  (0b0001_000_1111_1_0000_0101_1111_0_00_1_1010#32, .mvnReg4 .ne true 0 5 ⟨15, .lsl, 10⟩)]

theorem test_decode_reg4Words : ∀ p ∈ reg4Words, decode p.1 = .instr p.2 := by decide

/-- Multiply: `Cond 0000 L U A S Rd Rn Rs 1001 Rm`. -/
def multiplyWords : List (Word × Instr) := [
  (0b0001_0000_000_0_0001_0100_0111_1001_1010#32, .mul .ne false 1 4 7 10),
  (0b0010_0000_001_1_0010_0101_1000_1001_1011#32, .mla .cs true 2 5 8 11),
  (0b0011_0000_100_0_0011_0110_1001_1001_1100#32, .umull .cc false 3 6 9 12),
  (0b0100_0000_101_1_0100_0111_1010_1001_1101#32, .umlal .mi true 4 7 10 13),
  (0b0101_0000_110_0_0101_1000_1011_1001_1110#32, .smull .pl false 5 8 11 14),
  (0b0110_0000_111_1_0110_1001_1100_1001_1111#32, .smlal .vs true 6 9 12 15)]

theorem test_decode_multiplyWords : ∀ p ∈ multiplyWords, decode p.1 = .instr p.2 := by decide

/-- SWP: `Cond 00010 B 00 Rn Rd 0000 1001 Rm`. -/
def swapWords : List (Word × Instr) := [
  (0b1110_00010_0_00_0001_0010_0000_1001_0011#32, .swp .al 1 2 3),
  (0b0000_00010_1_00_1101_0110_0000_1001_1011#32, .swpb .eq 13 6 11)]

theorem test_decode_swapWords : ∀ p ∈ swapWords, decode p.1 = .instr p.2 := by decide

/-- Halfword and signed transfers: `Cond 000 P U I W L Rn Rd hi 1 SH 1 lo`. -/
def halfwordWords : List (Word × Instr) := [
  (0b1001_000_0_0_0_1_1_0010_1000_0000_1_01_1_0101#32, .ldrhReg .ls ⟨false, false, true⟩ 2 8 5),
  (0b1010_000_1_0_1_0_1_0011_1001_0110_1_01_1_1101#32, .ldrhImm .ge ⟨true, false, false⟩ 3 9 0x6d),
  (0b1011_000_1_1_0_1_0_0100_1010_0000_1_01_1_0111#32, .strhReg .lt ⟨true, true, true⟩ 4 10 7),
  (0b1100_000_0_1_1_0_0_0101_1011_1001_1_01_1_0011#32, .strhImm .gt ⟨false, true, false⟩ 5 11 0x93),
  (0b1101_000_1_0_0_1_1_0110_1100_0000_1_10_1_1001#32, .ldrsbReg .le ⟨true, false, true⟩ 6 12 9),
  (0b1110_000_0_0_1_0_1_0111_1101_1011_1_10_1_1001#32, .ldrsbImm .al ⟨false, false, false⟩ 7 13 0xb9),
  (0b1111_000_0_1_0_1_1_1000_1110_0000_1_11_1_1011#32, .ldrshReg .nv ⟨false, true, true⟩ 8 14 11),
  (0b0000_000_1_1_1_0_1_1001_1111_1101_1_11_1_1111#32, .ldrshImm .eq ⟨true, true, false⟩ 9 15 0xdf)]

theorem test_decode_halfwordWords : ∀ p ∈ halfwordWords, decode p.1 = .instr p.2 := by decide

/-- BX `Cond 0001 0010 1111 1111 1111 0001 Rn`, MRS and the three MSR forms (R96, R97). -/
def statusWords : List (Word × Instr) := [
  (0b0001_0001_0010_1111_1111_1111_0001_0110#32, .bx .ne 6),
  (0b1110_00010_1_001111_0101_000000000000#32, .mrs .al true 5),
  (0b1110_00010_0_101001_1111_00000000_0011#32, .msrReg .al false 3),
  (0b0010_00010_1_101000_1111_00000000_1001#32, .msrRegFlags .cs true 9),
  (0b1110_00110_0_101000_1111_1011_11000101#32, .msrImmFlags .al false ⟨11, 0xC5⟩)]

theorem test_decode_statusWords : ∀ p ∈ statusWords, decode p.1 = .instr p.2 := by decide

/-- Data Transfer: `Cond 010 P U B W L Rn Rd offset` and `Cond 011 P U B W L Rn Rd Shift LA 0 Rm`. -/
def transferWords : List (Word × Instr) := [
  (0b0001_010_0_1_0_1_1_0001_0111_010110100011#32, .ldrImm .ne ⟨false, true, true⟩ 1 7 0x5a3),
  (0b0011_011_0_0_0_0_1_0010_1000_01000_00_0_1101#32, .ldrReg .cc ⟨false, false, false⟩ 2 8 ⟨8, .lsl, 13⟩),
  (0b0101_010_1_0_0_1_0_0011_1001_011110100101#32, .strImm .pl ⟨true, false, true⟩ 3 9 0x7a5),
  (0b0111_011_0_1_0_0_0_0100_1010_10010_01_0_1111#32, .strReg .vc ⟨false, true, false⟩ 4 10 ⟨18, .lsr, 15⟩),
  (0b1001_010_1_1_1_1_1_0101_1011_100110100111#32, .ldrbImm .ls ⟨true, true, true⟩ 5 11 0x9a7),
  (0b1011_011_1_0_1_0_1_0110_1100_11100_10_0_0001#32, .ldrbReg .lt ⟨true, false, false⟩ 6 12 ⟨28, .asr, 1⟩),
  (0b1101_010_0_0_1_1_0_0111_1101_101110101001#32, .strbImm .le ⟨false, false, true⟩ 7 13 0xba9),
  (0b1111_011_1_1_1_0_0_1000_1110_00110_11_0_0011#32, .strbReg .nv ⟨true, true, false⟩ 8 14 ⟨6, .ror, 3⟩)]

theorem test_decode_transferWords : ∀ p ∈ transferWords, decode p.1 = .instr p.2 := by decide

/-- Block Transfer: `Cond 100 P U S W L Rn RegisterList`. -/
def blockWords : List (Word × Instr) := [
  (0b1011_100_0_1_0_0_1_0101_1000000101110001#32, .ldm .lt ⟨false, true, false⟩ 5 0x8171),
  (0b1100_100_1_0_0_1_0_0110_1001001110100101#32, .stm .gt ⟨true, false, true⟩ 6 0x93a5),
  (0b1101_100_0_0_1_0_1_0111_1010010111011001#32, .ldmS .le ⟨false, false, false⟩ 7 0xa5d9),
  (0b1110_100_0_1_1_1_0_1000_1011100000001101#32, .stmS .al ⟨false, true, true⟩ 8 0xb80d)]

theorem test_decode_blockWords : ∀ p ∈ blockWords, decode p.1 = .instr p.2 := by decide

/-- Branch: `Cond 101 L offset`. -/
def branchWords : List (Word × Instr) := [
  (0b0001_101_0_111111111111111111111011#32, .b .ne 0xFFFFFB),
  (0b1110_101_1_000000000000000000111110#32, .bl .al 0x3E)]

theorem test_decode_branchWords : ∀ p ∈ branchWords, decode p.1 = .instr p.2 := by decide

/-! ### One step on the test vectors of the spec -/

/-- S1, from 95_test_vectors.md section 1.1. -/
theorem test_andImm : ran 0xE2000001 (start [(0, 0xFFFFFFFF)] (fl 0 0 0 0) []) 0 =
    some (1, 0x104, fl 0 0 0 0) := by decide

/-- ANDS, from 96_test_vectors_alu_branch.md section 2.1. -/
theorem test_andReg3 : ran 0xE0110002 (start [(0, 0xDEADBEEF), (1, 0x80000000), (2, 0x80000000)] (fl 0 0 1 0) []) 0 =
    some (0x80000000, 0x104, fl 1 0 1 0) := by decide

/-- S3, from 95_test_vectors.md section 1.1. -/
theorem test_eorImm : ran 0xE2200003 (start [(0, 5)] (fl 0 0 0 0) []) 0 =
    some (6, 0x104, fl 0 0 0 0) := by decide

/-- EORS, from 96_test_vectors_alu_branch.md section 2.1. -/
theorem test_eorReg3 : ran 0xE0310002 (start [(0, 0xDEADBEEF), (1, 0xFFFFFFFF), (2, 1)] (fl 0 0 0 0) []) 0 =
    some (0xFFFFFFFE, 0x104, fl 1 0 0 0) := by decide

/-- S13, from 95_test_vectors.md section 1.1. -/
theorem test_subImm : ran 0xE2410C01 (start [(1, 0x300)] (fl 0 0 0 0) []) 0 =
    some (0x200, 0x104, fl 0 0 0 0) := by decide

/-- SUBS, from 96_test_vectors_alu_branch.md section 2.1. -/
theorem test_subReg3 : ran 0xE0510002 (start [(0, 0xDEADBEEF), (1, 0x7FFFFFFF), (2, 1)] (fl 0 0 0 0) []) 0 =
    some (0x7FFFFFFE, 0x104, fl 0 0 1 0) := by decide

/-- S15, from 95_test_vectors.md section 1.1. -/
theorem test_rsbImm : ran 0xE2610C01 (start [(1, 1)] (fl 0 0 0 0) []) 0 =
    some (0xFF, 0x104, fl 0 0 0 0) := by decide

/-- RSBS, from 96_test_vectors_alu_branch.md section 2.1. -/
theorem test_rsbReg3 : ran 0xE0710002 (start [(0, 0xDEADBEEF), (1, 0x7FFFFFFF), (2, 1)] (fl 0 0 0 0) []) 0 =
    some (0x80000002, 0x104, fl 1 0 0 0) := by decide

/-- `ADD R0, PC, #4`, from 96_test_vectors_alu_branch.md section 2.5. -/
theorem test_addImm : ran 0xE28F0004 (start [(0, 0xDEADBEEF)] (fl 0 0 0 0) []) 0 =
    some (0x10C, 0x104, fl 0 0 0 0) := by decide

/-- ADDS, from 96_test_vectors_alu_branch.md section 2.1. -/
theorem test_addReg3 : ran 0xE0910002 (start [(0, 0xDEADBEEF), (1, 0x7FFFFFFF), (2, 1)] (fl 0 0 0 0) []) 0 =
    some (0x80000000, 0x104, fl 1 0 0 1) := by decide

/-- `ADD R0, R1, R2, LSL R3`, from 96_test_vectors_alu_branch.md section 2.5. -/
theorem test_addReg4 : ran 0xE0810312 (start [(1, 1), (2, 1), (3, 4), (0, 0xDEADBEEF)] (fl 0 0 0 0) []) 0 =
    some (0x11, 0x104, fl 0 0 0 0) := by decide

/-- ADCS, from 96_test_vectors_alu_branch.md section 2.1. -/
theorem test_adcReg3 : ran 0xE0B10002 (start [(0, 0xDEADBEEF), (1, 0x7FFFFFFF), (2, 1)] (fl 0 0 0 0) []) 0 =
    some (0x80000000, 0x104, fl 1 0 0 1) := by decide

/-- SBCS, from 96_test_vectors_alu_branch.md section 2.1. -/
theorem test_sbcReg3 : ran 0xE0D10002 (start [(0, 0xDEADBEEF), (1, 0x7FFFFFFF), (2, 1)] (fl 0 0 0 0) []) 0 =
    some (0x7FFFFFFD, 0x104, fl 0 0 1 0) := by decide

/-- RSCS, from 96_test_vectors_alu_branch.md section 2.1. -/
theorem test_rscReg3 : ran 0xE0F10002 (start [(0, 0xDEADBEEF), (1, 0x7FFFFFFF), (2, 1)] (fl 0 0 0 0) []) 0 =
    some (0x80000001, 0x104, fl 1 0 0 0) := by decide

/-- S18, from 95_test_vectors.md section 1.1. -/
theorem test_tstImm : ran 0xE3100001 (start [(0, 3)] (fl 0 1 1 0) []) 0 =
    some (3, 0x104, fl 0 0 1 0) := by decide

/-- TST, from 96_test_vectors_alu_branch.md section 2.1. -/
theorem test_tstReg3 : ran 0xE1110002 (start [(0, 0xDEADBEEF), (1, 0x80000000), (2, 0x80000000)] (fl 0 0 1 0) []) 0 =
    some (0xDEADBEEF, 0x104, fl 1 0 1 0) := by decide

/-- TEQ, from 96_test_vectors_alu_branch.md section 2.1. -/
theorem test_teqReg3 : ran 0xE1310002 (start [(0, 0xDEADBEEF), (1, 0xFFFFFFFF), (2, 1)] (fl 0 0 0 0) []) 0 =
    some (0xDEADBEEF, 0x104, fl 1 0 0 0) := by decide

/-- S16, from 95_test_vectors.md section 1.1. -/
theorem test_cmpImm : ran 0xE3500032 (start [(0, 0x32)] (fl 0 0 0 0) []) 0 =
    some (0x32, 0x104, fl 0 1 1 0) := by decide

/-- CMP, from 96_test_vectors_alu_branch.md section 2.1. -/
theorem test_cmpReg3 : ran 0xE1510002 (start [(0, 0xDEADBEEF), (1, 0x7FFFFFFF), (2, 1)] (fl 0 0 0 0) []) 0 =
    some (0xDEADBEEF, 0x104, fl 0 0 1 0) := by decide

/-- S17, from 95_test_vectors.md section 1.1. -/
theorem test_cmnImm : ran 0xE3700001 (start [(0, 0xFFFFFFFF)] (fl 0 0 0 0) []) 0 =
    some (0xFFFFFFFF, 0x104, fl 0 1 1 0) := by decide

/-- CMN, from 96_test_vectors_alu_branch.md section 2.1. -/
theorem test_cmnReg3 : ran 0xE1710002 (start [(0, 0xDEADBEEF), (1, 0x7FFFFFFF), (2, 1)] (fl 0 0 0 0) []) 0 =
    some (0xDEADBEEF, 0x104, fl 1 0 0 1) := by decide

/-- S2, from 95_test_vectors.md section 1.1. -/
theorem test_orrImm : ran 0xE3800003 (start [(0, 0x10)] (fl 0 0 0 0) []) 0 =
    some (0x13, 0x104, fl 0 0 0 0) := by decide

/-- ORRS, from 96_test_vectors_alu_branch.md section 2.1. -/
theorem test_orrReg3 : ran 0xE1910002 (start [(0, 0xDEADBEEF), (1, 0xFFFFFFFF), (2, 1)] (fl 0 0 0 0) []) 0 =
    some (0xFFFFFFFF, 0x104, fl 1 0 0 0) := by decide

/-- `MOVS R0, #0xFF, 2` (ror 2), from 96_test_vectors_alu_branch.md section 2.4. -/
theorem test_movImm : ran 0xE3B001FF (start [] (fl 0 0 0 0) []) 0 =
    some (0xC000003F, 0x104, fl 1 0 1 0) := by decide

/-- MOVS, from 96_test_vectors_alu_branch.md section 2.1. -/
theorem test_movReg3 : ran 0xE1B10002 (start [(0, 0xDEADBEEF), (1, 0x80000000), (2, 0x80000000)] (fl 0 0 1 0) []) 0 =
    some (0x80000000, 0x104, fl 1 0 1 0) := by decide

/-- `MOVS R0, R1, LSL R2`, from 96_test_vectors_alu_branch.md section 2.3. -/
theorem test_movReg4 : ran 0xE1B00211 (start [(1, 0x80000001), (2, 0)] (fl 0 0 0 0) []) 0 =
    some (0x80000001, 0x104, fl 1 0 0 0) := by decide

/-- S20, from 95_test_vectors.md section 1.1. -/
theorem test_bicImm : ran 0xE3C0000B (start [(0, 0xFFFFFFFF)] (fl 0 0 0 0) []) 0 =
    some (0xFFFFFFF4, 0x104, fl 0 0 0 0) := by decide

/-- BICS, from 96_test_vectors_alu_branch.md section 2.1. -/
theorem test_bicReg3 : ran 0xE1D10002 (start [(0, 0xDEADBEEF), (1, 0xFFFFFFFF), (2, 1)] (fl 0 0 0 0) []) 0 =
    some (0xFFFFFFFE, 0x104, fl 1 0 0 0) := by decide

/-- S6, from 95_test_vectors.md section 1.1. -/
theorem test_mvnImm : ran 0xE3E02000 (start [] (fl 0 0 0 0) []) 2 =
    some (0xFFFFFFFF, 0x104, fl 0 0 0 0) := by decide

/-- MVNS, from 96_test_vectors_alu_branch.md section 2.1. -/
theorem test_mvnReg3 : ran 0xE1F10002 (start [(0, 0xDEADBEEF), (1, 0x7FFFFFFF), (2, 1)] (fl 0 0 0 0) []) 0 =
    some (0xFFFFFFFE, 0x104, fl 1 0 0 0) := by decide

/-- S32, from 95_test_vectors.md section 1.1. -/
theorem test_mul : ran 0xE0000291 (start [(1, 7), (2, 6)] (fl 0 0 0 0) []) 0 =
    some (0x2A, 0x104, fl 0 0 0 0) := by decide

/-- MLA, from 96_test_vectors_alu_branch.md section 2.8. -/
theorem test_mla : ran 0xE0200291 (start [(0, 0xA), (1, 3), (2, 4)] (fl 0 0 0 0) []) 0 =
    some (0x16, 0x104, fl 0 0 0 0) := by decide

/-- UMULL, from 96_test_vectors_alu_branch.md section 2.8l. -/
theorem test_umull : ran 0xE0810392 (start [(0, 5), (1, 1), (2, 0xFFFFFFFF), (3, 2)] (fl 0 0 0 0) []) 1 =
    some (1, 0x104, fl 0 0 0 0) := by decide

/-- UMLAL, from 96_test_vectors_alu_branch.md section 2.8l. -/
theorem test_umlal : ran 0xE0A10392 (start [(0, 5), (1, 1), (2, 0xFFFFFFFF), (3, 2)] (fl 0 0 0 0) []) 1 =
    some (3, 0x104, fl 0 0 0 0) := by decide

/-- SMULL, from 96_test_vectors_alu_branch.md section 2.8l. -/
theorem test_smull : ran 0xE0C10392 (start [(0, 5), (1, 1), (2, 0xFFFFFFFF), (3, 2)] (fl 0 0 0 0) []) 1 =
    some (0xFFFFFFFF, 0x104, fl 0 0 0 0) := by decide

/-- SMLAL, from 96_test_vectors_alu_branch.md section 2.8l. -/
theorem test_smlal : ran 0xE0E10392 (start [(0, 5), (1, 1), (2, 0xFFFFFFFF), (3, 2)] (fl 0 0 0 0) []) 1 =
    some (1, 0x104, fl 0 0 0 0) := by decide

/-- `SWP R0,R1,[R2]`, from 97_test_vectors_memory_faults.md section 2.10. -/
theorem test_swp : ran 0xE1020091 (start [(1, 0xAAAAAAAA), (2, 0x1000), (0, 0xDEADBEEF)] (fl 0 0 0 0) table) 0 =
    some (0x11223344, 0x104, fl 0 0 0 0) := by decide
theorem test_swp_memory :
    stored 0xE1020091 (start [(1, 0xAAAAAAAA), (2, 0x1000), (0, 0xDEADBEEF)] (fl 0 0 0 0) table) 0x1000 =
    some 0xAAAAAAAA := by decide

/-- `SWPB R0,R1,[R2]`, from 97_test_vectors_memory_faults.md section 2.10. -/
theorem test_swpb : ran 0xE1420091 (start [(1, 0xAAAAAAEE), (2, 0x1001), (0, 0xDEADBEEF)] (fl 0 0 0 0) table) 0 =
    some (0x33, 0x104, fl 0 0 0 0) := by decide
theorem test_swpb_memory :
    stored 0xE1420091 (start [(1, 0xAAAAAAEE), (2, 0x1001), (0, 0xDEADBEEF)] (fl 0 0 0 0) table) 0x1000 =
    some 0x1122EE44 := by decide

/-- `LDRH R0,[R1],#2`, from 97_test_vectors_memory_faults.md section 2.10. -/
theorem test_ldrhImm : ran 0xE0D100B2 (start [(1, 0x1000), (0, 0xDEADBEEF)] (fl 0 0 0 0) table) 0 =
    some (0x3344, 0x104, fl 0 0 0 0) := by decide

/-- `STRH R0,[R1]`, from 97_test_vectors_memory_faults.md section 2.10. -/
theorem test_strhImm : ran 0xE1C100B0 (start [(0, 0xABCD1234), (1, 0x1002)] (fl 0 0 0 0) table) 0 =
    some (0xABCD1234, 0x104, fl 0 0 0 0) := by decide
theorem test_strhImm_memory : stored 0xE1C100B0 (start [(0, 0xABCD1234), (1, 0x1002)] (fl 0 0 0 0) table) 0x1000 =
    some 0x12343344 := by decide

/-- `LDRSB R0,[R1]`, from 97_test_vectors_memory_faults.md section 2.10. -/
theorem test_ldrsbImm : ran 0xE1D100D0 (start [(1, 0x100A), (0, 0xDEADBEEF)] (fl 0 0 0 0) table) 0 =
    some (0xFFFFFFAA, 0x104, fl 0 0 0 0) := by decide

/-- `LDRSH R0,[R1,R2]`, from 97_test_vectors_memory_faults.md section 2.10. -/
theorem test_ldrshReg : ran 0xE19100F2 (start [(1, 0x1000), (2, 4), (0, 0xDEADBEEF)] (fl 0 0 0 0) table) 0 =
    some (0x7788, 0x104, fl 0 0 0 0) := by decide

/-- `LDRSH R0,[R1]`, from 97_test_vectors_memory_faults.md section 2.10. -/
theorem test_ldrshImm : ran 0xE1D100F0 (start [(1, 0x100A), (0, 0xDEADBEEF)] (fl 0 0 0 0) table) 0 =
    some (0xFFFF99AA, 0x104, fl 0 0 0 0) := by decide

/-- `BX LR`, from 96_test_vectors_alu_branch.md section 2.7. -/
theorem test_bx : ran 0xE12FFF1E (start [(14, 0x200), (0, 0xDEADBEEF)] (fl 0 0 0 0) []) 14 =
    some (0x200, 0x200, fl 0 0 0 0) := by decide

/-- `MRS R0, CPSR`, from 97_test_vectors_memory_faults.md section 2.12. -/
theorem test_mrs : ran 0xE10F0000 (start [(0, 0xDEADBEEF)] (fl 0 1 1 0) []) 0 =
    some (0x60000000, 0x104, fl 0 1 1 0) := by decide

/-- `MSR CPSR, R0`, from 97_test_vectors_memory_faults.md section 2.12. -/
theorem test_msrReg : ran 0xE129F000 (start [(0, 0x600000D3)] (fl 0 0 0 0) []) 0 =
    some (0x600000D3, 0x104, fl 0 1 1 0) := by decide

/-- `MSR CPSR_flg, R0`, from 97_test_vectors_memory_faults.md section 2.12. -/
theorem test_msrRegFlags : ran 0xE128F000 (start [(0, 0x90000000)] (fl 0 0 0 0) []) 0 =
    some (0x90000000, 0x104, fl 1 0 0 1) := by decide

/-- `MSR CPSR_flg, #0xF0000000`, from 97_test_vectors_memory_faults.md section 2.12. -/
theorem test_msrImmFlags : ran 0xE328F20F (start [(0, 0xDEADBEEF)] (fl 0 0 0 0) []) 0 =
    some (0xDEADBEEF, 0x104, fl 1 1 1 1) := by decide

/-- `LDR R0,[R1,#4]!`, from 97_test_vectors_memory_faults.md section 2.9. -/
theorem test_ldrImm : ran 0xE5B10004 (start [(1, 0x1000), (0, 0xDEADBEEF)] (fl 0 0 0 0) table) 0 =
    some (0x55667788, 0x104, fl 0 0 0 0) := by decide

/-- `LDR R0,[R1,R2,LSL #2]!`, from 97_test_vectors_memory_faults.md section 2.9. -/
theorem test_ldrReg : ran 0xE7B10102 (start [(1, 0x1000), (2, 1), (0, 0xDEADBEEF)] (fl 0 0 0 0) table) 0 =
    some (0x55667788, 0x104, fl 0 0 0 0) := by decide

/-- `STR R0,[R1,#-4]!`, from 97_test_vectors_memory_faults.md section 2.9. -/
theorem test_strImm : ran 0xE5210004 (start [(0, 0xAABBCCDD), (1, 0x1000)] (fl 0 0 0 0) table) 1 =
    some (0xFFC, 0x104, fl 0 0 0 0) := by decide
theorem test_strImm_memory : stored 0xE5210004 (start [(0, 0xAABBCCDD), (1, 0x1000)] (fl 0 0 0 0) table) 0xFFC =
    some 0xAABBCCDD := by decide

/-- `STR R0,[R1,R2,LSL #2]`, from 97_test_vectors_memory_faults.md section 2.9. -/
theorem test_strReg : ran 0xE7810102 (start [(0, 0x1020304), (1, 0x1000), (2, 2)] (fl 0 0 0 0) table) 0 =
    some (0x1020304, 0x104, fl 0 0 0 0) := by decide
theorem test_strReg_memory :
    stored 0xE7810102 (start [(0, 0x1020304), (1, 0x1000), (2, 2)] (fl 0 0 0 0) table) 0x1008 =
    some 0x1020304 := by decide

/-- `LDRB R0,[R1]`, from 97_test_vectors_memory_faults.md section 2.9. -/
theorem test_ldrbImm : ran 0xE5D10000 (start [(1, 0x1000), (0, 0xDEADBEEF)] (fl 0 0 0 0) table) 0 =
    some (0x44, 0x104, fl 0 0 0 0) := by decide

/-- `STRB R0,[R1,#2]`, from 97_test_vectors_memory_faults.md section 2.9. -/
theorem test_strbImm : ran 0xE5C10002 (start [(0, 0xFFFFFFAB), (1, 0x1004)] (fl 0 0 0 0) table) 0 =
    some (0xFFFFFFAB, 0x104, fl 0 0 0 0) := by decide
theorem test_strbImm_memory : stored 0xE5C10002 (start [(0, 0xFFFFFFAB), (1, 0x1004)] (fl 0 0 0 0) table) 0x1004 =
    some 0x55AB7788 := by decide

/-- `STRB R0,[R1],R2`, from 97_test_vectors_memory_faults.md section 2.9. -/
theorem test_strbReg : ran 0xE6C10002 (start [(0, 0x12345678), (1, 0x1001), (2, 3)] (fl 0 0 0 0) table) 1 =
    some (0x1004, 0x104, fl 0 0 0 0) := by decide
theorem test_strbReg_memory :
    stored 0xE6C10002 (start [(0, 0x12345678), (1, 0x1001), (2, 3)] (fl 0 0 0 0) table) 0x1000 =
    some 0x11227844 := by decide

/-- `LDMFD SP!,{R0-R12,LR,PC}`, from 97_test_vectors_memory_faults.md section 2.11. -/
theorem test_ldm : ran 0xE8BDDFFF (start [(13, 0x1FF0), (0, 0xDEADBEEF)] (fl 0 0 0 0) blockTable) 0 =
    some (0xA0, 0, fl 0 0 0 0) := by decide

/-- `STMEA R0,{R0,R1} (W = 0, base in list)`, from 97_test_vectors_memory_faults.md section 2.11. -/
theorem test_stm : ran 0xE8800003 (start [(0, 0x1FF0), (1, 7)] (fl 0 0 0 0) blockTable) 0 =
    some (0x1FF0, 0x104, fl 0 0 0 0) := by decide
theorem test_stm_memory : stored 0xE8800003 (start [(0, 0x1FF0), (1, 7)] (fl 0 0 0 0) blockTable) 0x1FF4 =
    some 7 := by decide

/-- `B . (to itself)`, from 96_test_vectors_alu_branch.md section 2.7. -/
theorem test_b : ran 0xEAFFFFFE (start [(0, 0xDEADBEEF)] (fl 0 0 0 0) []) 0 =
    some (0xDEADBEEF, 0x100, fl 0 0 0 0) := by decide

/-- `BL 0x200`, from 96_test_vectors_alu_branch.md section 2.7. -/
theorem test_bl : ran 0xEB00003E (start [(14, 0x999), (0, 0xDEADBEEF)] (fl 0 0 0 0) []) 14 =
    some (0x104, 0x200, fl 0 0 0 0) := by decide

/-! ### Steps computed by hand from the rules -/

/-- ADCS, SBCS, RSCS and TEQ with an immediate (R134, R137, R138, R142). -/
theorem test_adcImm : ran 0xE2B10001 (start [(1, 0xFFFFFFFE)] (fl 0 0 1 0) []) 0 =
    some (0, 0x104, fl 0 1 1 0) := by decide

theorem test_sbcImm : ran 0xE2D10001 (start [(1, 5)] (fl 0 0 0 0) []) 0 = some (3, 0x104, fl 0 0 1 0) := by decide

theorem test_rscImm : ran 0xE2F10000 (start [(1, 0)] (fl 0 0 0 0) []) 0 =
    some (0xFFFFFFFF, 0x104, fl 1 0 0 0) := by decide

theorem test_teqImm : ran 0xE3310005 (start [(1, 5)] (fl 0 0 1 1) []) 1 = some (5, 0x104, fl 0 1 1 1) := by decide

/-- `OPS R0, R1, R2, LSL R3` with R1 = 0x7FFFFFFF, R2 = 1, R3 = 4 and C clear, for the sixteen opcodes in order. -/
theorem test_reg4 :
    ∀ p ∈ [(0xE0110312, 0x10, fl 0 0 0 0), (0xE0310312, 0x7FFFFFEF, fl 0 0 0 0), (0xE0510312, 0x7FFFFFEF, fl 0 0 1 0),
        (0xE0710312, 0x80000011, fl 1 0 0 0), (0xE0910312, 0x8000000F, fl 1 0 0 1),
        (0xE0B10312, 0x8000000F, fl 1 0 0 1), (0xE0D10312, 0x7FFFFFEE, fl 0 0 1 0),
        (0xE0F10312, 0x80000010, fl 1 0 0 0), (0xE1110312, 9, fl 0 0 0 0), (0xE1310312, 9, fl 0 0 0 0),
        (0xE1510312, 9, fl 0 0 1 0), (0xE1710312, 9, fl 1 0 0 1), (0xE1910312, 0x7FFFFFFF, fl 0 0 0 0),
        (0xE1B10312, 0x10, fl 0 0 0 0), (0xE1D10312, 0x7FFFFFEF, fl 0 0 0 0), (0xE1F10312, 0xFFFFFFEF, fl 1 0 0 0)],
      ran p.1 (start [(0, 9), (1, 0x7FFFFFFF), (2, 1), (3, 4)] (fl 0 0 0 0) []) 0 = some (p.2.1, 0x104, p.2.2) := by
  decide

/-- LDRH, STRH, LDRSB and LDRB with a register offset (R246, R255 to R257). -/
theorem test_ldrhReg : ran 0xE19100B2 (start [(1, 0x1000), (2, 2)] (fl 0 0 0 0) table) 0 =
    some (0x1122, 0x104, fl 0 0 0 0) := by decide

theorem test_strhReg : stored 0xE18100B2 (start [(0, 0xABCD1234), (1, 0x1000), (2, 0)] (fl 0 0 0 0) table) 0x1000 =
    some 0x11221234 := by decide

theorem test_ldrsbReg : ran 0xE19100D2 (start [(1, 0x1000), (2, 8)] (fl 0 0 0 0) table) 0 =
    some (0xFFFFFFCC, 0x104, fl 0 0 0 0) := by decide

theorem test_ldrbReg : ran 0xE7D10002 (start [(1, 0x1000), (2, 1)] (fl 0 0 0 0) table) 0 =
    some (0x33, 0x104, fl 0 0 0 0) := by decide

/-! ### Faults -/

/-- A state without any tier-2 feature, pc 0x100, R1 = 0x1000, R2 = 1. -/
def plain : State := { start [(1, 0x1000), (2, 1)] (fl 0 0 0 0) [] with cfg := Config.suggested }

/-- The rows of 97_test_vectors_memory_faults.md section 2.13 for reserved words. -/
theorem test_reserved_words :
    ∀ w ∈ [0xEC000000, 0xEE000000, 0xEF000000, 0xE6000010, 0xE7F000F0, 0xE0400291, 0xE1000001, 0xE3400001,
        0xE12FFF30, 0xE12FEF1E, 0xE1200070, 0xE16F0F10, 0xE1C100D0, 0x1F000000],
      stops w plain = some (.reservedEncoding (BitVec.ofNat 32 w)) := by decide

/-- The rows of section 2.13 for features not admitted. -/
theorem test_unsupported_words :
    ∀ p ∈ [(0xE1D100B2, Feature.halfword), (0xE1420091, .swpb), (0xE0810392, .longMultiply), (0xE10F0000, .psr),
        (0xE14F0000, .psr), (0xE1A00061, .rrx), (0xE7910062, .rrx), (0xE1B0F06E, .rrx), (0xE8FD8070, .blockS),
        (0xE8700000, .blockS)],
      stops p.1 plain = some (.unsupported p.2) := by decide

/-- The rows of section 2.13 that change when the feature is admitted. -/
theorem test_admitted_words :
    stops 0xE14F0000 (start [] (fl 0 0 0 0) []) = some (.unsupported .spsr) ∧
      stops 0xE1B0F06E (start [] (fl 0 0 0 0) []) = some (.unpredictable .sWithPcDest) ∧
      ran 0xE1A00061 (start [(1, 5)] (fl 0 0 1 0) []) 0 = some (0x80000002, 0x104, fl 0 0 1 0) := by decide

/-- The rows of section 2.13 for the order of the checks, and of section 2.11 for LDM. -/
theorem test_order_of_checks :
    stops 0xE4911004 (start [(1, 0x1002)] (fl 0 0 0 0) []) = some (.unpredictable .transferOperands) ∧
      stops 0xE5910000 (start [(1, 0x10002)] (fl 0 0 0 0) []) = some (.dataMisaligned 0x10002 4) ∧
      stops 0xE8BD0003 (start [(13, 0xFFFC)] (fl 0 0 0 0) []) = some (.accessOutOfRange 0x10000 4) ∧
      stops 0xE8BD0000 (start [(13, 0x1FF0)] (fl 0 0 0 0) []) = some (.unpredictable .blockOperands) := by decide

/-- LDM and STM with S = 1 stop (section 2.11); with a condition that fails they advance (R184). -/
theorem test_block_with_s :
    stops 0xE8FD0000 plain = some (.unsupported .blockS) ∧ stops 0xE8ED0001 plain = some (.unsupported .blockS) ∧
      ran 0x08FD0000 plain 13 = some (0, 0x104, fl 0 0 0 0) := by decide

/-- The last paragraph of section 2.13: the faults of the fetch. -/
theorem test_fetch_faults :
    faultOf (step { plain with pc := 0x102 }) = some (.fetchMisaligned 0x102) ∧
      faultOf (step { plain with pc := 0x10000 }) = some (.accessOutOfRange 0x10000 4) ∧
      faultOf (step { plain with pc := 0x10002 }) = some (.fetchMisaligned 0x10002) ∧
      faultOf (step { plain with pc := 0xFFFFFFFF }) = some .runEnded := by decide

/-- The rows of section 2.13 whose condition fails. -/
theorem test_failed_conditions :
    ran 0x1F000000 { plain with flags := fl 0 1 0 0 } 1 = some (0x1000, 0x104, fl 0 1 0 0) ∧
      ran 0xF7F000F0 plain 1 = some (0x1000, 0x104, fl 0 0 0 0) ∧
      ran 0x01D100B2 plain 1 = some (0x1000, 0x104, fl 0 0 0 0) := by decide

/-! ### The ill-formed terms WellFormed refuses: one for each check -/

/-- S = 1 with Rd = 15, in the three forms (R128). -/
theorem test_illFormed_pcDest :
    (Instr.andImm .al true 1 15 ⟨0, 1⟩).wellFormed = false ∧
      (Instr.movReg3 .al true 0 15 ⟨0, .lsl, 14⟩).wellFormed = false ∧
      (Instr.addReg4 .al true 1 15 ⟨2, .lsl, 3⟩).wellFormed = false ∧
      (Instr.mvnReg4 .al true 1 15 ⟨2, .lsl, 3⟩).wellFormed = false := by decide

/-- R15 as Rn, Rm or Rs of the form reg4 (R128). -/
theorem test_illFormed_reg4 :
    (Instr.subReg4 .al false 15 1 ⟨2, .lsl, 3⟩).wellFormed = false ∧
      (Instr.cmpReg4 .al 1 0 ⟨15, .lsl, 3⟩).wellFormed = false ∧
      (Instr.movReg4 .al false 0 1 ⟨2, .lsl, 15⟩).wellFormed = false := by decide

/-- The multiplies (R223, R225). -/
theorem test_illFormed_multiply :
    (Instr.mul .al false 1 0 2 1).wellFormed = false ∧ (Instr.mul .al false 15 0 2 1).wellFormed = false ∧
      (Instr.mla .al false 1 15 2 3).wellFormed = false ∧ (Instr.mla .al false 1 4 15 3).wellFormed = false ∧
      (Instr.umull .al false 1 1 2 3).wellFormed = false ∧ (Instr.smull .al false 3 1 2 3).wellFormed = false ∧
      (Instr.umlal .al false 1 3 2 3).wellFormed = false ∧ (Instr.smlal .al false 1 2 15 3).wellFormed = false := by
  decide

/-- SWP (R252). -/
theorem test_illFormed_swap :
    (Instr.swp .al 2 2 1).wellFormed = false ∧ (Instr.swp .al 2 1 2).wellFormed = false ∧
      (Instr.swpb .al 15 1 2).wellFormed = false ∧ (Instr.swpb .al 2 15 1).wellFormed = false := by decide

/-- Single transfers: the base update, the offset register, Rd = 15 (R248, R254). -/
theorem test_illFormed_transfer :
    (Instr.ldrImm .al ⟨false, true, false⟩ 15 0 4).wellFormed = false ∧
      (Instr.ldrImm .al ⟨true, true, true⟩ 1 1 4).wellFormed = false ∧
      (Instr.ldrReg .al ⟨true, true, false⟩ 1 0 ⟨0, .lsl, 15⟩).wellFormed = false ∧
      (Instr.strReg .al ⟨true, true, true⟩ 1 0 ⟨0, .lsl, 1⟩).wellFormed = false ∧
      (Instr.strImm .al ⟨true, true, false⟩ 1 15 4).wellFormed = false ∧
      (Instr.ldrbImm .al ⟨true, true, false⟩ 1 15 4).wellFormed = false ∧
      (Instr.ldrhReg .al ⟨true, true, true⟩ 1 0 1).wellFormed = false ∧
      (Instr.ldrshImm .al ⟨true, true, false⟩ 1 15 4).wellFormed = false := by decide

/-- Block transfers: empty list, Rn = 15, Rn in the list with W = 1, R15 stored (R290). -/
theorem test_illFormed_block :
    (Instr.ldm .al ⟨false, true, true⟩ 13 0).wellFormed = false ∧
      (Instr.ldm .al ⟨false, true, false⟩ 15 1).wellFormed = false ∧
      (Instr.ldm .al ⟨false, true, true⟩ 1 2).wellFormed = false ∧
      (Instr.stm .al ⟨false, true, false⟩ 13 0x8000).wellFormed = false := by decide

/-- MRS and MSR with R15 (R302, R303). -/
theorem test_illFormed_status :
    (Instr.mrs .al false 15).wellFormed = false ∧ (Instr.msrReg .al false 15).wellFormed = false ∧
      (Instr.msrRegFlags .al false 15).wellFormed = false := by decide

/-! ### Shifts, from R121 to R123 -/

/-- Shifts by an immediate amount at the ends of the range. -/
theorem test_shift_by_immediate :
    shiftImm 0x80000001 .lsl 0 true = ⟨0x80000001, true⟩ ∧ shiftImm 0x80000001 .lsr 0 false = ⟨0, true⟩ ∧
      shiftImm 0x80000001 .asr 0 false = ⟨0xFFFFFFFF, true⟩ ∧ shiftImm 0x80000002 .ror 0 true = ⟨0xC0000001, false⟩ ∧
      shiftImm 0x80000001 .lsl 1 false = ⟨2, true⟩ ∧ shiftImm 0x40000001 .lsl 31 true = ⟨0x80000000, false⟩ ∧
      shiftImm 0x80000001 .lsr 31 true = ⟨1, false⟩ ∧ shiftImm 0x80000001 .asr 1 false = ⟨0xC0000000, true⟩ ∧
      shiftImm 0x80000001 .ror 31 false = ⟨3, false⟩ := by decide

/-- Shifts by a register amount at the amounts where the cases of R122 meet. -/
theorem test_shift_by_register :
    shiftReg 0x80000001 .ror 0 true = ⟨0x80000001, true⟩ ∧ shiftReg 0x80000001 .lsl 31 false = ⟨0x80000000, false⟩ ∧
      shiftReg 0x80000001 .lsl 32 false = ⟨0, true⟩ ∧ shiftReg 0x80000001 .lsl 33 true = ⟨0, false⟩ ∧
      shiftReg 0x80000001 .lsr 32 false = ⟨0, true⟩ ∧ shiftReg 0x80000001 .lsr 255 true = ⟨0, false⟩ ∧
      shiftReg 0x80000001 .asr 32 false = ⟨0xFFFFFFFF, true⟩ ∧ shiftReg 0x7FFFFFFF .asr 255 true = ⟨0, false⟩ ∧
      shiftReg 0x80000001 .ror 32 false = ⟨0x80000001, true⟩ ∧ shiftReg 0x80000001 .ror 33 false = ⟨0xC0000000, true⟩ := by
  decide

/-! ### Witnesses: a state and operands that meet the hypotheses of each statement -/

/-- The hypotheses of a completion: the condition passes, the features are admitted, the operands are well formed and
every access is aligned and inside memory. -/
abbrev Admitted (i : Instr) (s : State) : Prop :=
  condPassed i.cond s.flags = true ∧ i.missingFeature s.cfg = none ∧ i.wellFormed = true ∧
    ∀ x ∈ i.accesses s, Access.allowed s.cfg x

/-- The state of the witnesses: R0 = 7, R1 = 0x1000, R2 = 4, R3 = 5, R4 = 0x2001, R13 = 0xFF00, R14 = 0x300. -/
def ws : State :=
  start [(0, 7), (1, 0x1000), (2, 4), (3, 5), (4, 0x2001), (13, 0xFF00), (14, 0x300)] (fl 0 0 1 0) table

/-- The state `ws` that fetches the word `w`. -/
def at_ (w : Nat) : State := ws.withFetchWord 32 w

theorem witness_EncodeOfDecode :
    decode 0x00000000#32 = .instr (.andReg3 .eq false 0 0 ⟨0, .lsl, 0⟩) ∧
      decode 0xFBFFFFFF#32 = .instr (.bl .nv 0xFFFFFF) := by decide

/-- Each clause of `reservedWord`, at the edge of its range. -/
theorem witness_ReservedWordsAreThoseListed :
    reservedWord 0x0C000000 ∧ reservedWord 0xFFFFFFFF ∧ reservedWord 0x06000010 ∧ reservedWord 0xE0400090 ∧
      reservedWord 0xE1000190 ∧ reservedWord 0xE1800090 ∧ reservedWord 0xE00000D0 ∧ reservedWord 0xE00000F0 ∧
      reservedWord 0xE01001B0 ∧ reservedWord 0xE1000000 ∧ reservedWord 0xE3000000 :=
  ⟨by decide, by decide, by decide, by decide, by decide, by decide, by decide, by decide, by decide, by decide,
    by decide⟩

/-- Words beside the reserved ones. -/
theorem witness_ReservedWordsAreThoseListed_others :
    ¬reservedWord 0x0BFFFFFF ∧ ¬reservedWord 0xE6000000 ∧ ¬reservedWord 0xE0000090 ∧ ¬reservedWord 0xE1000090 ∧
      ¬reservedWord 0xE01000D0 ∧ ¬reservedWord 0xE15001B0 ∧ ¬reservedWord 0xE12FFF11 :=
  ⟨by decide, by decide, by decide, by decide, by decide, by decide, by decide⟩

/-- A step runs an instruction at pc 0x100 and in the last word of memory. -/
theorem witness_StepRunsDecodedInstruction :
    ((at_ 0xE2810C01).pc ≠ (at_ 0xE2810C01).cfg.endPc ∧
      Access.allowed (at_ 0xE2810C01).cfg ((at_ 0xE2810C01).pc, 4) ∧
      decode (at_ 0xE2810C01).fetchWord = .instr (.addImm .al false 1 0 ⟨12, 1⟩)) ∧
    let last := { ws with pc := 0xFFFC }.withFetchWord 32 0xE12FFF1E
    last.pc ≠ last.cfg.endPc ∧ Access.allowed last.cfg (last.pc, 4) ∧ decode last.fetchWord = .instr (.bx .al 14) := by
  decide

/-- A reserved word with a condition that fails, and an instruction with a condition that fails. -/
theorem witness_FailedConditionOnlyAdvancesPc :
    ((at_ 0x0F000000).pc ≠ (at_ 0x0F000000).cfg.endPc ∧
      Access.allowed (at_ 0x0F000000).cfg ((at_ 0x0F000000).pc, 4) ∧
      condPassed (condOf (at_ 0x0F000000).fetchWord) (at_ 0x0F000000).flags = false) ∧
    condPassed (Instr.ldmS .nv ⟨true, true, true⟩ 15 0).cond ws.flags = false := by decide

theorem witness_ReservedWordFaults :
    (at_ 0xEF000000).pc ≠ (at_ 0xEF000000).cfg.endPc ∧
      Access.allowed (at_ 0xEF000000).cfg ((at_ 0xEF000000).pc, 4) ∧
      condPassed (condOf (at_ 0xEF000000).fetchWord) (at_ 0xEF000000).flags = true ∧
      reservedWord (at_ 0xEF000000).fetchWord := by decide

/-- The three clauses: the end of the run, pc 0x10002, and the first word past and the first word below memory. -/
theorem witness_StepStopsBeforeFetch :
    (let s := { ws with pc := 0xFFFFFFFF }; s.pc = s.cfg.endPc) ∧
    (let s := { ws with pc := 0x10002 }; s.pc ≠ s.cfg.endPc ∧ s.pc.toNat % 4 ≠ 0) ∧
    (let s := { ws with pc := 0x10000 };
      s.pc ≠ s.cfg.endPc ∧ s.pc.toNat % 4 = 0 ∧ s.cfg.memBase.toNat + s.cfg.memSize < s.pc.toNat + 4) ∧
    let s := { ws with pc := 0xFC, cfg := { ws.cfg with memBase := 0x100 } };
    s.pc ≠ s.cfg.endPc ∧ s.pc.toNat % 4 = 0 ∧ s.pc.toNat < s.cfg.memBase.toNat := by decide

/-- STR with an immediate and with a register offset. -/
theorem witness_FetchReadsStoredWord :
    condPassed .al ws.flags = true ∧ (∃ t, exec (.strImm .al ⟨true, true, true⟩ 1 0 4) ws = .next t) ∧
      ∃ t, exec (.strReg .al ⟨false, true, false⟩ 1 0 ⟨2, .lsl, 2⟩) ws = .next t :=
  ⟨by decide, exists_of_isNext (by decide), exists_of_isNext (by decide)⟩

/-- The ranges of the bytes of a word at 0x1000 and the addresses beside it. -/
theorem witness_MemoryIsLittleEndian :
    (0 < Width.word.bytes ∧ 3 < Width.word.bytes ∧ 1 < Width.half.bytes ∧ 0 < Width.byte.bytes) ∧
      (0xFFF < 0x1000 ∧ 0x1000 + Width.word.bytes ≤ 0x1004 ∧ 0x1000 + Width.byte.bytes ≤ 0x1001) ∧
      ((ws.mem.store .word 0x1000 0xAABBCCDD).read 0x1000 = 0xDD ∧
        (ws.mem.store .word 0x1000 0xAABBCCDD).read 0x1003 = 0xAA) := by decide

/-- The vector of 97_test_vectors_memory_faults.md section 2.14. -/
theorem witness_MixedWidthAccesses :
    ((ws.mem.store .word 0x1000 0x11223344).store .byte (0x1000 + 1) 0xEE).readWord 0x1000 = 0x1122EE44 ∧
      (ws.mem.store .word 0x1000 0x11223344).readHalf (0x1000 + 2 * 1) = 0x1122 := by decide

theorem witness_RegisterReadsAndWrites : (14#4 : Reg) ≠ regPC ∧ (0#4 : Reg) ≠ 14#4 ∧ (0#4 : Reg) ≠ regPC := by decide

/-- A step that stores keeps hypotheses and is a next state: STR R0, [R1, #4]! at pc 0x100. -/
theorem witness_StepKeepsInvariant : (at_ 0xE5A10004).Inv ∧ ∃ t, step (at_ 0xE5A10004) = .next t :=
  ⟨by decide, exists_of_isNext (by decide)⟩

/-- With a draw, with a draw not taken because the condition fails, and without one. -/
theorem witness_ExecKeepsParameters :
    (∃ t, exec (.mul .al true 0 0 2 3) ws = .next t) ∧ (∃ t, exec (.mul .nv true 0 0 2 3) ws = .next t) ∧
      ∃ t, exec (.mul .al false 0 0 2 3) ws = .next t :=
  ⟨exists_of_isNext (by decide), exists_of_isNext (by decide), exists_of_isNext (by decide)⟩

/-- A decoded instruction that takes no draw. -/
theorem noDraw {w : Word} {j : Instr} (h : decode w = .instr j) (hj : j.drawsCarry = false) :
    ∀ i, decode w = .instr i → i.drawsCarry = false := by
  intro i hi
  rw [h] at hi
  cases hi
  exact hj

/-- A next state, and a fault. -/
theorem witness_StepIgnoresDraws :
    ((∀ i, decode (at_ 0xE2810C01).fetchWord = .instr i → i.drawsCarry = false) ∧
      ∃ t, step (at_ 0xE2810C01) = .next t) ∧
    (∀ i, decode (at_ 0xE5940000).fetchWord = .instr i → i.drawsCarry = false) ∧
      step (at_ 0xE5940000) = .fault (.dataMisaligned 0x2001 4) :=
  ⟨⟨noDraw (j := .addImm .al false 1 0 ⟨12, 1⟩) (by decide) (by decide), exists_of_isNext (by decide)⟩,
    noDraw (j := .ldrImm .al ⟨true, true, false⟩ 4 0 0) (by decide) (by decide), by rfl⟩

theorem witness_OnlyDestinationsChange :
    (∃ t, exec (.ldrImm .al ⟨true, true, true⟩ 1 0 4) ws = .next t) ∧ (14#4 : Reg) ≠ regPC ∧
      (14#4 : Reg) ∉ (Instr.ldrImm .al ⟨true, true, true⟩ 1 0 4).destinations :=
  ⟨exists_of_isNext (by decide), by decide, by decide⟩

theorem witness_OnlyFlagWritersChangeFlags :
    (∃ t, exec (.addReg3 .al false 1 0 ⟨0, .lsl, 2⟩) ws = .next t) ∧
      (Instr.addReg3 .al false 1 0 ⟨0, .lsl, 2⟩).writesFlags = false :=
  ⟨exists_of_isNext (by decide), by decide⟩

/-- The bytes beside a stored word, and any byte for a load. -/
theorem witness_OnlyStoredBytesChange :
    (∃ t, exec (.strImm .al ⟨true, true, true⟩ 1 0 4) ws = .next t) ∧
      ¬(Instr.strImm .al ⟨true, true, true⟩ 1 0 4).storesTo ws 0x1003 ∧
      ¬(Instr.strImm .al ⟨true, true, true⟩ 1 0 4).storesTo ws 0x1008 ∧
      (∃ t, exec (.ldrImm .al ⟨true, true, true⟩ 1 0 4) ws = .next t) ∧
      ¬(Instr.ldrImm .al ⟨true, true, true⟩ 1 0 4).storesTo ws 0x1004 :=
  ⟨exists_of_isNext (by decide), by decide, by decide, exists_of_isNext (by decide), by decide⟩

/-- A branch whose condition fails, and an instruction that does not write R15. -/
theorem witness_PcAdvancesUnlessWritten :
    (∃ t, exec (.b .ne 5) { ws with flags := fl 0 1 0 0 } = .next t) ∧
      condPassed (Instr.b .ne 5).cond (fl 0 1 0 0) = false ∧
      (∃ t, exec (.movImm .al true 0 14 ⟨0, 1⟩) ws = .next t) ∧
      regPC ∉ (Instr.movImm .al true 0 14 ⟨0, 1⟩).destinations :=
  ⟨exists_of_isNext (by decide), by decide, exists_of_isNext (by decide), by decide⟩

/-- A branch, and an instruction that does not write R15. -/
theorem witness_PcStaysAligned :
    ws.pc.toNat % 4 = 0 ∧ (∃ t, exec (.bl .al 0xFFFFFF) ws = .next t) ∧
      (∃ c off, Instr.bl .al 0xFFFFFF = .b c off ∨ Instr.bl .al 0xFFFFFF = .bl c off) ∧
      (∃ t, exec (.movImm .al true 0 14 ⟨0, 1⟩) ws = .next t) ∧
      regPC ∉ (Instr.movImm .al true 0 14 ⟨0, 1⟩).destinations :=
  ⟨by decide, exists_of_isNext (by decide), ⟨_, _, .inr rfl⟩, exists_of_isNext (by decide), by decide⟩

/-- The 48 data-processing instructions: S = 1, and Rd = 15 with S = 0. -/
theorem witness_AdmittedInstructionCompletes_dataProcessing :
    (∀ sf rd, (sf, rd) ∈ [(true, 14#4), (false, 15#4)] →
      (∀ f ∈ [Instr.andImm, .eorImm, .subImm, .rsbImm, .addImm, .adcImm, .sbcImm, .rscImm, .orrImm, .movImm, .bicImm,
          .mvnImm], Admitted (f .al sf 15 rd ⟨15, 0xFF⟩) ws) ∧
      (∀ f ∈ [Instr.andReg3, .eorReg3, .subReg3, .rsbReg3, .addReg3, .adcReg3, .sbcReg3, .rscReg3, .orrReg3, .movReg3,
          .bicReg3, .mvnReg3], Admitted (f .al sf 15 rd ⟨0, .ror, 15⟩) ws) ∧
      (∀ f ∈ [Instr.andReg4, .eorReg4, .subReg4, .rsbReg4, .addReg4, .adcReg4, .sbcReg4, .rscReg4, .orrReg4, .bicReg4],
        Admitted (f .al sf 14 rd ⟨2, .lsl, 3⟩) ws) ∧
      ∀ f ∈ [Instr.movReg4, .mvnReg4], Admitted (f .al sf 15 rd ⟨2, .lsl, 3⟩) ws) ∧
    (∀ f ∈ [Instr.tstImm, .teqImm, .cmpImm, .cmnImm], Admitted (f .al 15 15 ⟨0, 0⟩) ws) ∧
    (∀ f ∈ [Instr.tstReg3, .teqReg3, .cmpReg3, .cmnReg3], Admitted (f .al 15 15 ⟨0, .ror, 15⟩) ws) ∧
    ∀ f ∈ [Instr.tstReg4, .teqReg4, .cmpReg4, .cmnReg4], Admitted (f .al 14 15 ⟨0, .asr, 14⟩) ws := by
  refine ⟨?_, by decide, by decide, by decide⟩
  intro sf rd h
  simp only [List.mem_cons, Prod.mk.injEq, List.not_mem_nil, or_false] at h
  obtain ⟨rfl, rfl⟩ | ⟨rfl, rfl⟩ := h <;> exact ⟨by decide, by decide, by decide, by decide⟩

/-- The other 33 instructions that complete, the transfers at the edge of memory. -/
theorem witness_AdmittedInstructionCompletes_others :
    (∀ f ∈ [Instr.mul, .mla], Admitted (f .al true 0 0 3 2) ws) ∧
    (∀ f ∈ [Instr.umull, .umlal, .smull, .smlal], Admitted (f .al true 0 1 3 2) ws) ∧
    (∀ f ∈ [Instr.swp, .swpb], Admitted (f .al 1 0 0) ws) ∧
    (∀ f ∈ [Instr.ldrhReg, .strhReg, .ldrsbReg, .ldrshReg], Admitted (f .al ⟨true, true, true⟩ 1 0 2) ws) ∧
    (∀ f ∈ [Instr.ldrhImm, .strhImm, .ldrsbImm, .ldrshImm], Admitted (f .al ⟨true, true, false⟩ 13 14 0xFE) ws) ∧
    (∀ f ∈ [Instr.ldrImm, .strImm, .ldrbImm, .strbImm], Admitted (f .al ⟨true, true, false⟩ 13 14 0xFC) ws) ∧
    (∀ f ∈ [Instr.ldrReg, .strReg, .ldrbReg, .strbReg],
      Admitted (f .al ⟨false, false, true⟩ 1 0 ⟨31, .lsl, 2⟩) ws) := by
  decide

theorem witness_AdmittedInstructionCompletes_single :
    ∀ i ∈ [Instr.ldrImm .al ⟨true, true, false⟩ 15 15 0, .ldm .al ⟨false, true, true⟩ 13 0x8001,
        .stm .al ⟨true, false, true⟩ 13 0x4001, .b .al 0x800000, .bl .al 0x7FFFFF, .bx .al 15, .mrs .al false 14,
        .msrReg .al false 0, .msrRegFlags .al false 0, .msrImmFlags .al false ⟨0, 0⟩], Admitted i ws := by decide

/-- One instruction for each feature, with and without it. -/
theorem witness_UnsupportedExactlyWhenMissing :
    (∀ p ∈ [(Instr.ldrhImm .al ⟨true, true, false⟩ 1 0 2, Feature.halfword), (.swpb .al 1 0 2, .swpb),
        (.umull .al false 0 1 3 2, .longMultiply), (.movReg3 .al true 0 15 ⟨0, .ror, 1⟩, .rrx),
        (.mrs .al true 0, .psr), (.stmS .al ⟨true, true, true⟩ 15 0, .blockS)],
      condPassed p.1.cond plain.flags = true ∧ p.1.missingFeature plain.cfg = some p.2) ∧
    (Instr.mrs .al true 0).missingFeature ws.cfg = some .spsr ∧
    (Instr.movReg3 .al true 0 15 ⟨0, .ror, 1⟩).missingFeature ws.cfg = none := by decide

/-- One instruction for each reason. -/
theorem witness_UnpredictableExactlyWhenIllFormed :
    ∀ p ∈ [(Instr.addReg4 .al true 15 15 ⟨2, .lsl, 3⟩, Reason.r15InReg4),
        (.movReg4 .al true 15 15 ⟨2, .lsl, 3⟩, .sWithPcDest), (.andImm .al true 1 15 ⟨0, 1⟩, .sWithPcDest),
        (.mul .al false 1 0 2 1, .mulOperands), (.ldrImm .al ⟨false, true, false⟩ 1 1 0, .transferOperands),
        (.swp .al 1 1 0, .swapOperands), (.ldm .al ⟨true, true, true⟩ 1 2, .blockOperands),
        (.msrReg .al false 15, .psrOperands)],
      condPassed p.1.cond ws.flags = true ∧ p.1.missingFeature ws.cfg = none ∧ p.1.wellFormed = false ∧
        p.1.unpredictableReason = some p.2 := by decide

/-- The second word of an LDM past the end of memory, and a misaligned LDR whose address lies outside memory too. -/
theorem witness_FirstBadAccessFaults :
    (let i : Instr := .ldm .al ⟨false, true, true⟩ 13 3
      let s := { ws with regs := ws.regs.set 13 0xFFFC#32 }
      condPassed i.cond s.flags = true ∧ i.missingFeature s.cfg = none ∧ i.wellFormed = true ∧
        i.accesses s = [(0xFFFC#32, 4)] ++ (0x10000#32, 4) :: [] ∧ Access.allowed s.cfg (0xFFFC#32, 4) ∧
        ¬Access.allowed s.cfg (0x10000#32, 4)) ∧
    (let i : Instr := .ldrImm .al ⟨true, true, false⟩ 1 0 0
      let s := { ws with regs := ws.regs.set 1 0x10002#32 }
      condPassed i.cond s.flags = true ∧ i.missingFeature s.cfg = none ∧ i.wellFormed = true ∧
        i.accesses s = [] ++ (0x10002#32, 4) :: [] ∧ ¬Access.allowed s.cfg (0x10002#32, 4)) := by decide

/-- A state for each of the steps 1 to 9 of R329, and one that completes. -/
theorem witness_OrderOfChecks :
    stepFault { ws with pc := 0xFFFFFFFF } = some .runEnded ∧
      stepFault { ws with pc := 0x10002 } = some (.fetchMisaligned 0x10002) ∧
      stepFault { ws with pc := 0x10000 } = some (.accessOutOfRange 0x10000 4) ∧
      stepFault (at_ 0x0F000000) = none ∧ stepFault (at_ 0xEF000000) = some (.reservedEncoding 0xEF000000) ∧
      stepFault (at_ 0xE8700000) = some (.unsupported .blockS) ∧
      stepFault (at_ 0xE1B0F06E) = some (.unpredictable .sWithPcDest) ∧
      stepFault (at_ 0xE5940000) = some (.dataMisaligned 0x2001 4) ∧ stepFault (at_ 0xE2810C01) = none := by decide

/-- A compare, and a flag-setting subtraction. -/
theorem witness_ConditionsAfterCompare :
    condPassed .al ws.flags = true ∧ (∃ t, exec (.cmpReg3 .al 15 0 ⟨0, .ror, 15⟩) ws = .next t) ∧
      ∃ t, exec (.subReg3 .al true 0 14 ⟨31, .asr, 1⟩) ws = .next t :=
  ⟨by decide, exists_of_isNext (by decide), exists_of_isNext (by decide)⟩

/-- The ranges of the amounts of R121 to R123. -/
theorem witness_shift_ranges :
    (1#5 ≠ 0#5 ∧ 31#5 ≠ 0#5) ∧ (15#4 ≠ 0#4 ∧ 1#4 ≠ 0#4) ∧ ((1 ≤ 1 ∧ 1 ≤ 31) ∧ (1 ≤ 31 ∧ 31 ≤ 31)) ∧ 33 ≤ 33 ∧ 32 ≤ 32 ∧
      (0 < 32 ∧ 32 % 32 = 0) ∧ (0 < 224 ∧ 224 % 32 = 0) ∧ 33 % 32 ≠ 0 ∧ 255 % 32 ≠ 0 := by decide

/-- For BitwiseResults, MoveResults, AddResults, SubtractResults and SubtractWithCarryResults: S = 1, Rd = 15 with
S = 0, RRX where it is admitted and where it is not the operand, and the registers of the form reg4. -/
theorem witness_ThreeForms :
    condPassed .al ws.flags = true ∧ ¬(true = true ∧ (14#4 : Reg) = regPC) ∧
      ¬(false = true ∧ (15#4 : Reg) = regPC) ∧
      ((⟨0, .ror, 15⟩ : ShiftedReg).isRrx = true → ws.cfg.admitRrx = true) ∧
      ((⟨1, .ror, 15⟩ : ShiftedReg).isRrx = true → plain.cfg.admitRrx = true) ∧
      (true = true → (14#4 : Reg) ≠ regPC) ∧ (false = true → (15#4 : Reg) ≠ regPC) ∧
      (⟨3, .lsl, 2⟩ : RegShiftedReg).rm ≠ regPC ∧ (⟨3, .lsl, 2⟩ : RegShiftedReg).rs ≠ regPC := by decide

/-- For TestResults and CompareResults. -/
theorem witness_CompareForms :
    condPassed .al ws.flags = true ∧ ((⟨0, .ror, 15⟩ : ShiftedReg).isRrx = true → ws.cfg.admitRrx = true) ∧
      (14#4 : Reg) ≠ regPC ∧ (⟨3, .lsl, 2⟩ : RegShiftedReg).rm ≠ regPC ∧
      (⟨3, .lsl, 2⟩ : RegShiftedReg).rs ≠ regPC := by decide

theorem witness_MultiplyResults :
    ∀ sf, (condPassed (Instr.mul .al sf 0 15 3 2).cond ws.flags = true ∧ (Instr.mul .al sf 0 15 3 2).wellFormed = true) ∧
      condPassed (Instr.mla .al sf 0 0 3 2).cond ws.flags = true ∧ (Instr.mla .al sf 0 0 3 2).wellFormed = true := by
  decide

theorem witness_MultiplyIsSignAgnostic :
    condPassed .al ws.flags = true ∧ (∃ t, exec (.mul .al false 0 0 3 2) ws = .next t) ∧
      ∃ t, exec (.mul .al true 0 0 3 2) ws = .next t :=
  ⟨by decide, exists_of_isNext (by decide), exists_of_isNext (by decide)⟩

theorem witness_LongMultiplyResults :
    ws.cfg.admitLongMul = true ∧ ∀ sf, ∀ f ∈ [Instr.umull, .umlal, .smull, .smlal],
      condPassed (f .al sf 0 1 3 2).cond ws.flags = true ∧ (f .al sf 0 1 3 2).wellFormed = true := by decide

/-- Each of P and W, and Rn = Rd without a base update. -/
theorem witness_IndexingTable :
    condPassed .al ws.flags = true ∧
      (∀ ix ∈ [(⟨false, true, false⟩ : Indexing), ⟨false, false, true⟩, ⟨true, true, false⟩, ⟨true, false, true⟩],
        isNext (exec (.ldrbImm .al ix 1 0 3) ws) = true) ∧
      isNext (exec (.ldrbImm .al ⟨true, true, false⟩ 1 1 3) ws) = true ∧
      ((1#4 : Reg) ≠ 0#4 ∧ (1#4 : Reg) ≠ regPC) := by decide

/-- For LoadResults, StoreResults, HalfwordAndSignedLoadResults and HalfwordStoreResults: the hypotheses of each form,
with and without a base update, Rd = 15 for LDR, and the last bytes of memory. -/
theorem witness_LoadAndStoreResults :
    (∀ f ∈ [Instr.ldrImm, .strImm, .ldrbImm, .strbImm],
      Admitted (f .al ⟨false, true, false⟩ 1 0 0xFFF) ws ∧ Admitted (f .al ⟨true, true, true⟩ 13 0 0xFC) ws) ∧
    (∀ f ∈ [Instr.ldrReg, .strReg, .ldrbReg, .strbReg],
      Admitted (f .al ⟨true, false, true⟩ 1 0 ⟨0, .lsl, 2⟩) ws ∧
        Admitted (f .al ⟨true, true, false⟩ 1 1 ⟨1, .lsl, 2⟩) ws) ∧
    (∀ f ∈ [Instr.ldrhImm, .strhImm, .ldrsbImm, .ldrshImm],
      Admitted (f .al ⟨false, true, false⟩ 1 0 0xFF) ws ∧ Admitted (f .al ⟨true, true, true⟩ 13 0 0xFE) ws) ∧
    (∀ f ∈ [Instr.ldrhReg, .strhReg, .ldrsbReg, .ldrshReg], Admitted (f .al ⟨true, false, true⟩ 1 0 2) ws) ∧
    Admitted (.ldrImm .al ⟨true, true, true⟩ 1 15 0) ws ∧ Admitted (.ldrReg .al ⟨true, true, false⟩ 1 15 ⟨0, .lsl, 2⟩) ws := by
  decide

/-- SWP at an aligned address, SWPB at any. -/
theorem witness_SwapResults :
    Admitted (.swp .al 1 0 0) ws ∧ Access.allowed ws.cfg (ws.reg 1, 4) ∧ Admitted (.swpb .al 4 0 2) ws ∧
      Access.allowed ws.cfg (ws.reg 4, 1) := by decide

/-- With R15 in the list, with write-back, and with the base in the list. -/
theorem witness_LoadMultipleResult :
    Admitted (.ldm .al ⟨false, true, true⟩ 13 0xC001) ws ∧ Admitted (.ldm .al ⟨true, false, false⟩ 1 0x0002) ws := by
  decide

/-- With write-back, with the base in the list, and the whole register list R0 to R14. -/
theorem witness_StoreMultipleResult :
    Admitted (.stm .al ⟨true, false, true⟩ 13 0x4003) ws ∧ Admitted (.stm .al ⟨false, true, false⟩ 1 0x7FFF) ws := by
  decide

theorem witness_BlockTransferWithSStops : condPassed .al ws.flags = true := by decide

/-- A push of R0, R2 and R14 on R13 and the state after it. -/
theorem witness_PopUndoesPush :
    ∃ s1, condPassed .al ws.flags = true ∧ exec (.stm .al ⟨true, false, true⟩ 13 0x4005) ws = .next s1 ∧
      condPassed .al s1.flags = true :=
  ⟨_, by decide, rfl, by decide⟩

theorem witness_BranchResults : condPassed .al ws.flags = true ∧ condPassed .cs ws.flags = true := by decide

/-- The state right after BL. -/
theorem witness_ReturnResumesAfterCall :
    ∃ s1, condPassed .al ws.flags = true ∧ exec (.bl .al 0x3E) ws = .next s1 ∧ condPassed .al s1.flags = true :=
  ⟨_, by decide, rfl, by decide⟩

theorem witness_StatusRegisterResults :
    condPassed .al ws.flags = true ∧ ws.cfg.admitPsr = true ∧ (14#4 : Reg) ≠ regPC := by decide

/-- PSR transfers not admitted, and admitted with bit 22 = 1. -/
theorem witness_SavedStatusRegisterStops :
    condPassed .al ws.flags = true ∧ plain.cfg.admitPsr = false ∧ ws.cfg.admitPsr = true ∧
      isNext (exec (.msrImmFlags .al true ⟨0, 0⟩) ws) = false := by decide

theorem witness_StatusReadsBackWhatWasWritten :
    ∃ t, condPassed .al ws.flags = true ∧ exec (.msrReg .al false 13) ws = .next t ∧ condPassed .al t.flags = true ∧
      (0#4 : Reg) ≠ regPC :=
  ⟨_, by decide, rfl, by decide, by decide⟩

end Sys2Proof.Tests
end

section
/-! Proofs of the family 20_memory.md: the byte order of data accesses and of the fetch (R51). -/

namespace Sys2Proof.Machine

open Claims

/-! ### The values of words put together from bytes -/

/-- The higher part of an append counts with the weight of its place. -/
theorem toNat_append_eq_add {n m : Nat} (hi : BitVec n) (lo : BitVec m) :
    (hi ++ lo).toNat = lo.toNat + hi.toNat * 2 ^ m := by
  rw [BitVec.toNat_append, ← Nat.shiftLeft_add_eq_or_of_lt lo.isLt, Nat.shiftLeft_eq, Nat.add_comm]

theorem wordOfBytes_toNat (b0 b1 b2 b3 : Byte) :
    (wordOfBytes b0 b1 b2 b3).toNat =
      b0.toNat + b1.toNat * 2 ^ 8 + b2.toNat * 2 ^ 16 + b3.toNat * 2 ^ 24 := by
  simp only [wordOfBytes, toNat_append_eq_add]
  omega

/-- The bytes the model stores are the bytes R51 counts. -/
theorem byteOfWord_eq_byteAt (v : Word) (k : Nat) : byteOfWord v k = byteAt v k := by
  rw [byteOfWord, byteAt, BitVec.extractLsb', Nat.shiftRight_eq_div_pow]

/-! ### Reads as sums of bytes -/

theorem Memory.toNat_read_eq_bytesAt (m : Memory) (a : Nat) : (m.read a).toNat = bytesAt m a 1 := by
  simp [bytesAt]

theorem Memory.toNat_readHalf_eq_bytesAt (m : Memory) (a : Nat) : (m.readHalf a).toNat = bytesAt m a 2 := by
  simp only [Memory.readHalf, toNat_append_eq_add, bytesAt, Nat.add_zero]
  omega

theorem Memory.toNat_readWord_eq_bytesAt (m : Memory) (a : Nat) : (m.readWord a).toNat = bytesAt m a 4 := by
  simp [Memory.readWord, wordOfBytes_toNat, bytesAt]

/-! ### Stores as bytes -/

/-- Byte `k` of a store reads as bits 8k + 7 to 8k of the stored word. -/
theorem Memory.read_store_eq_byteAt (m : Memory) (w : Width) (a : Nat) (v : Word) {k : Nat} (h : k < w.bytes) :
    (m.store w a v).read (a + k) = byteAt v k := by
  rw [Memory.read_store_of_lt m w a v k h, byteOfWord_eq_byteAt]

/-- Settles O11: each read is its sum of bytes, the fetch is a word read at the pc, and a store has its bytes and its
frame. -/
theorem memoryIsLittleEndian : Obligations.MemoryIsLittleEndian := by
  unfold Obligations.MemoryIsLittleEndian
  constructor
  · intro s
    exact Memory.toNat_readWord_eq_bytesAt s.mem s.pc.toNat
  · intro m a
    refine ⟨m.toNat_readWord_eq_bytesAt a, m.toNat_readHalf_eq_bytesAt a, m.toNat_read_eq_bytesAt a,
      fun w v => ⟨?_, ?_⟩⟩
    · exact fun k hk => m.read_store_eq_byteAt w a v hk
    · exact fun x hx => m.read_store_of_not_mem w a v x hx

end Sys2Proof.Machine
end

section
/-! Proofs of the family 40_data_processing.md: the shifter for a register amount (R122) and the immediate operand
(R123), in arithmetic. -/

namespace Sys2Proof.Machine

/-! ### Shifts and rotations of bit vectors as arithmetic on their numbers -/

theorem shiftLeft_eq_ofNat {w : Nat} (x : BitVec w) (n : Nat) : x <<< n = BitVec.ofNat w (x.toNat * 2 ^ n) := by
  apply BitVec.eq_of_toNat_eq
  simp [Nat.shiftLeft_eq]

theorem ushiftRight_eq_ofNat {w : Nat} (x : BitVec w) (n : Nat) : x >>> n = BitVec.ofNat w (x.toNat / 2 ^ n) := by
  rw [← Nat.shiftRight_eq_div_pow, ← BitVec.toNat_ushiftRight, BitVec.ofNat_toNat, BitVec.setWidth_eq]

theorem sshiftRight_eq_ofInt {w : Nat} (x : BitVec w) (n : Nat) :
    x.sshiftRight n = BitVec.ofInt w (x.toInt / 2 ^ n) := by
  have hdiv : x.toInt / 2 ^ n = (x.sshiftRight n).toInt := by
    rw [BitVec.toInt_sshiftRight, Int.shiftRight_eq_div_pow, Nat.cast_pow, Nat.cast_ofNat]
  rw [hdiv, BitVec.ofInt_toInt]

/-- What a multiplication by `2 ^ (w - n)` leaves in `w` bits: the low `n` bits, moved to the top. -/
theorem mul_two_pow_sub_mod {w n : Nat} (a : Nat) (hn : n ≤ w) :
    a * 2 ^ (w - n) % 2 ^ w = a % 2 ^ n * 2 ^ (w - n) := by
  have hpow : 2 ^ w = 2 ^ n * 2 ^ (w - n) := by rw [← Nat.pow_add, Nat.add_sub_cancel' hn]
  rw [hpow, Nat.mul_mod_mul_right]

/-- A rotation puts the low `n` bits above the other bits: the two parts do not overlap, so their `|||` is a sum. -/
theorem toNat_rotateRight_eq_add {w n : Nat} (x : BitVec w) (hn : n < w) :
    (x.rotateRight n).toNat = x.toNat / 2 ^ n + x.toNat % 2 ^ n * 2 ^ (w - n) := by
  have hlow : x.toNat / 2 ^ n < 2 ^ (w - n) := by
    rw [Nat.div_lt_iff_lt_mul (Nat.two_pow_pos n), ← Nat.pow_add, Nat.sub_add_cancel hn.le]
    exact x.isLt
  calc (x.rotateRight n).toNat
      = x.toNat / 2 ^ n ||| x.toNat * 2 ^ (w - n) % 2 ^ w := by
        rw [BitVec.toNat_rotateRight, Nat.mod_eq_of_lt hn, Nat.shiftRight_eq_div_pow, Nat.shiftLeft_eq]
    _ = (x.toNat % 2 ^ n) <<< (w - n) ||| x.toNat / 2 ^ n := by
        rw [mul_two_pow_sub_mod _ hn.le, Nat.shiftLeft_eq, Nat.or_comm]
    _ = x.toNat / 2 ^ n + x.toNat % 2 ^ n * 2 ^ (w - n) := by
        rw [← Nat.shiftLeft_add_eq_or_of_lt hlow, Nat.shiftLeft_eq, Nat.add_comm]

theorem rotateRight_eq_ofNat {w n : Nat} (x : BitVec w) (hn : n < w) :
    x.rotateRight n = BitVec.ofNat w (x.toNat / 2 ^ n + x.toNat % 2 ^ n * 2 ^ (w - n)) := by
  rw [← toNat_rotateRight_eq_add x hn, BitVec.ofNat_toNat, BitVec.setWidth_eq]

/-- The same rotation with the overflow of the left part cut off at the width. -/
theorem rotateRight_eq_ofNat_mul {w n : Nat} (x : BitVec w) (hn : n < w) :
    x.rotateRight n = BitVec.ofNat w (x.toNat / 2 ^ n + x.toNat * 2 ^ (w - n)) := by
  rw [rotateRight_eq_ofNat x hn, ← mul_two_pow_sub_mod _ hn.le]
  apply BitVec.eq_of_toNat_eq
  rw [BitVec.toNat_ofNat, BitVec.toNat_ofNat, Nat.add_mod_mod]

/-! ### The shifter for a register amount (R122), a lemma per row of its table -/

@[simp] theorem shiftReg_zero (v : Word) (kind : ShiftKind) (cin : Bool) : shiftReg v kind 0 cin = ⟨v, cin⟩ := rfl

theorem shiftReg_lsl_of_lt (v : Word) {n : Nat} (cin : Bool) (hpos : 1 ≤ n) (hlt : n < 32) :
    shiftReg v .lsl n cin = ⟨BitVec.ofNat 32 (v.toNat * 2 ^ n), v.getLsbD (32 - n)⟩ := by
  simp only [shiftReg, if_neg (Nat.ne_of_gt hpos), if_pos hlt, shiftLeft_eq_ofNat]

theorem shiftReg_lsr_of_lt (v : Word) {n : Nat} (cin : Bool) (hpos : 1 ≤ n) (hlt : n < 32) :
    shiftReg v .lsr n cin = ⟨BitVec.ofNat 32 (v.toNat / 2 ^ n), v.getLsbD (n - 1)⟩ := by
  simp only [shiftReg, if_neg (Nat.ne_of_gt hpos), if_pos hlt, ushiftRight_eq_ofNat]

theorem shiftReg_asr_of_lt (v : Word) {n : Nat} (cin : Bool) (hpos : 1 ≤ n) (hlt : n < 32) :
    shiftReg v .asr n cin = ⟨BitVec.ofInt 32 (v.toInt / 2 ^ n), v.getLsbD (n - 1)⟩ := by
  simp only [shiftReg, if_neg (Nat.ne_of_gt hpos), if_pos hlt, sshiftRight_eq_ofInt]

theorem shiftReg_lsl_32 (v : Word) (cin : Bool) : shiftReg v .lsl 32 cin = ⟨0#32, v.getLsbD 0⟩ := rfl

theorem shiftReg_lsr_32 (v : Word) (cin : Bool) : shiftReg v .lsr 32 cin = ⟨0#32, v.getLsbD 31⟩ := rfl

theorem shiftReg_lsl_of_gt (v : Word) {n : Nat} (cin : Bool) (h : 32 < n) : shiftReg v .lsl n cin = ⟨0#32, false⟩ := by
  simp only [shiftReg, if_neg (Nat.ne_zero_of_lt h), if_neg h.not_gt, if_neg h.ne']

theorem shiftReg_lsr_of_gt (v : Word) {n : Nat} (cin : Bool) (h : 32 < n) : shiftReg v .lsr n cin = ⟨0#32, false⟩ := by
  simp only [shiftReg, if_neg (Nat.ne_zero_of_lt h), if_neg h.not_gt, if_neg h.ne']

theorem shiftReg_asr_of_ge (v : Word) {n : Nat} (cin : Bool) (h : 32 ≤ n) :
    shiftReg v .asr n cin = ⟨signFill v, v.getLsbD 31⟩ := by
  simp only [shiftReg, if_neg (Nat.ne_zero_of_lt h), if_neg h.not_gt]

theorem shiftReg_ror_of_mod_eq_zero (v : Word) {n : Nat} (cin : Bool) (hpos : 0 < n) (h : n % 32 = 0) :
    shiftReg v .ror n cin = ⟨v, v.getLsbD 31⟩ := by
  simp only [shiftReg, if_neg hpos.ne', if_pos h]

theorem shiftReg_ror_of_mod_ne_zero (v : Word) {n : Nat} (cin : Bool) (h : n % 32 ≠ 0) :
    shiftReg v .ror n cin =
      ⟨BitVec.ofNat 32 (v.toNat / 2 ^ (n % 32) + v.toNat % 2 ^ (n % 32) * 2 ^ (32 - n % 32)),
        v.getLsbD (n % 32 - 1)⟩ := by
  have hn : n ≠ 0 := fun h0 => h (by rw [h0])
  simp only [shiftReg, if_neg hn, if_neg h, rotateRight_eq_ofNat v (Nat.mod_lt n (by decide : 32 > 0))]

/-- The low byte of Rs is its number modulo 256. -/
theorem State.op2Reg4_eq_shiftReg_mod (s : State) (o : RegShiftedReg) :
    s.op2Reg4 o = shiftReg (s.reg o.rm) o.kind ((s.reg o.rs).toNat % 256) s.flags.c := by
  rw [State.op2Reg4, BitVec.extractLsb'_toNat, Nat.shiftRight_zero]

/-- Settles O32: the amount is the low byte of Rs, and each clause is a row of the table of R122. -/
theorem shiftByRegister : Obligations.ShiftByRegister := by
  unfold Obligations.ShiftByRegister
  refine ⟨State.op2Reg4_eq_shiftReg_mod, fun v n cin => ⟨?zero, ?below32, shiftReg_lsl_32 v cin,
    shiftReg_lsr_32 v cin, ?above32, ?asr32, ?rorWhole, ?rorPart⟩⟩
  case zero => exact fun kind => shiftReg_zero v kind cin
  case below32 =>
    intro hpos hle
    have hlt : n < 32 := Nat.lt_succ_of_le hle
    exact ⟨shiftReg_lsl_of_lt v cin hpos hlt, shiftReg_lsr_of_lt v cin hpos hlt, shiftReg_asr_of_lt v cin hpos hlt⟩
  case above32 => exact fun h => ⟨shiftReg_lsl_of_gt v cin h, shiftReg_lsr_of_gt v cin h⟩
  case asr32 => exact fun h => shiftReg_asr_of_ge v cin h
  case rorWhole => exact fun hpos h => shiftReg_ror_of_mod_eq_zero v cin hpos h
  case rorPart => exact fun h => shiftReg_ror_of_mod_ne_zero v cin h

/-! ### The immediate operand (R123) -/

theorem toNat_zeroExtend_imm (imm : BitVec 8) : (imm.zeroExtend 32).toNat = imm.toNat :=
  BitVec.toNat_setWidth_of_le (by decide)

theorem rotImmValue_zero (imm : BitVec 8) : rotImmValue ⟨0#4, imm⟩ = BitVec.ofNat 32 imm.toNat := by
  have hrot : rotImmValue ⟨0#4, imm⟩ = (imm.zeroExtend 32).rotateRight 0 := rfl
  rw [hrot, rotateRight_eq_ofNat _ (by decide), toNat_zeroExtend_imm, Nat.pow_zero, Nat.div_one, Nat.mod_one,
    Nat.zero_mul, Nat.add_zero]

/-- Twice Rotate is at most 30, so the rotation of Imm is the sum of R123. -/
theorem rotImmValue_eq_ofNat (rot : BitVec 4) (imm : BitVec 8) :
    rotImmValue ⟨rot, imm⟩ =
      BitVec.ofNat 32 (imm.toNat / 2 ^ (2 * rot.toNat) + imm.toNat * 2 ^ (32 - 2 * rot.toNat)) := by
  have hrot : 2 * rot.toNat < 32 := by omega
  rw [rotImmValue, rotateRight_eq_ofNat_mul _ hrot, toNat_zeroExtend_imm]

theorem immOperand_of_rot_zero (imm : BitVec 8) (cin : Bool) :
    immOperand ⟨0#4, imm⟩ cin = ⟨BitVec.ofNat 32 imm.toNat, cin⟩ := by
  rw [immOperand, rotImmValue_zero, if_pos rfl]

/-- With a rotation the carry-out is the top bit of the operand. -/
theorem immOperand_carry_of_rot_ne_zero (o : RotImm) (cin : Bool) (h : o.rot ≠ 0#4) :
    (immOperand o cin).carry = (immOperand o cin).value.getLsbD 31 :=
  if_neg h

/-- Settles O33: the operand and the MSR value are `immOperand` by definition; its value and carry-out follow R123. -/
theorem rotatedImmediate : Obligations.RotatedImmediate := by
  unfold Obligations.RotatedImmediate
  refine ⟨fun s o => rfl, fun o cin => rfl, fun rot imm cin => ⟨immOperand_of_rot_zero imm cin, fun h => ⟨?_, ?_⟩⟩⟩
  · exact rotImmValue_eq_ofNat rot imm
  · exact immOperand_carry_of_rot_ne_zero ⟨rot, imm⟩ cin h

end Sys2Proof.Machine
end

section
/-! Proofs of the family 41_conditional_execution.md: the truth of the conditions (R180) and what an instruction whose
condition fails does (R184). -/

namespace Sys2Proof.Machine

/-! ### The conditions that read more than one flag (R180) -/

theorem condPassed_hi_iff (f : Flags) : condPassed .hi f = true ↔ f.c = true ∧ f.z = false := by simp [condPassed]

theorem condPassed_ls_iff (f : Flags) : condPassed .ls f = true ↔ f.c = false ∨ f.z = true := by simp [condPassed]

theorem condPassed_ge_iff (f : Flags) : condPassed .ge f = true ↔ f.n = f.v := by simp [condPassed]

theorem condPassed_lt_iff (f : Flags) : condPassed .lt f = true ↔ f.n ≠ f.v := by simp [condPassed]

theorem condPassed_gt_iff (f : Flags) : condPassed .gt f = true ↔ f.z = false ∧ f.n = f.v := by simp [condPassed]

theorem condPassed_le_iff (f : Flags) : condPassed .le f = true ↔ f.z = true ∨ f.n ≠ f.v := by simp [condPassed]

/-- Settles O29, row by row: each value of the field names its condition by evaluation, the values 0000 to 0111 test one
flag or its negation, 1000 to 1101 two or three flags, 1110 and 1111 none. -/
theorem conditionTable : Obligations.ConditionTable := by
  unfold Obligations.ConditionTable
  intro f
  exact ⟨Iff.rfl, iff_of_eq (Bool.not_eq_true' f.z),
    Iff.rfl, iff_of_eq (Bool.not_eq_true' f.c),
    Iff.rfl, iff_of_eq (Bool.not_eq_true' f.n),
    Iff.rfl, iff_of_eq (Bool.not_eq_true' f.v),
    condPassed_hi_iff f, condPassed_ls_iff f,
    condPassed_ge_iff f, condPassed_lt_iff f,
    condPassed_gt_iff f, condPassed_le_iff f,
    rfl, rfl⟩

/-! ### The shape of every meaning -/

/-- An instruction that only stops is one whose single check always fails. -/
theorem State.stopWith_eq_execute (s : State) (c : Cond) (f : Fault) : s.stopWith c f = s.execute c [some f] s := rfl

/-- Every instruction is the skeleton `execute` under its own condition, with its checks and its next state: LDM and STM
with S = 1 only stop, seven instructions have no check, and the others show theirs when unfolded. -/
theorem exec_eq_execute (i : Instr) (s : State) : ∃ checks t, exec i s = s.execute i.cond checks t := by
  cases i with
  | ldmS c ix rn list => exact ⟨_, _, s.stopWith_eq_execute c (.unsupported .blockS)⟩
  | stmS c ix rn list => exact ⟨_, _, s.stopWith_eq_execute c (.unsupported .blockS)⟩
  | tstImm | teqImm | cmpImm | cmnImm | bx | b | bl => exact ⟨[], _, rfl⟩
  | _ => exact ⟨_, _, rfl⟩

/-- R184 for every instruction: neither its checks nor its effect are reached. -/
theorem exec_of_not_passed {i : Instr} {s : State} (hc : condPassed i.cond s.flags = false) :
    exec i s = .next s.advance := by
  obtain ⟨checks, t, hexec⟩ := exec_eq_execute i s
  rw [hexec, State.execute_of_not_passed hc]

/-! ### A step that fetches -/

/-- The range check passes exactly when every byte of the access is inside memory (20_memory.md R56). -/
theorem rangeFault_eq_none_iff (c : Config) (a : Word) (n : Nat) :
    rangeFault c a n = none ↔ c.memBase.toNat ≤ a.toNat ∧ a.toNat + n ≤ c.memBase.toNat + c.memSize := by
  simp [rangeFault, inMemory]

/-- A step fetches exactly when the run has not ended and the pc is aligned and inside memory (R183). -/
theorem State.fetchFault_eq_none_iff (s : State) :
    s.fetchFault = none ↔ s.pc ≠ s.cfg.endPc ∧ Access.allowed s.cfg (s.pc, 4) := by
  simp [State.fetchFault, firstFault_eq_none_iff, rangeFault_eq_none_iff]

/-- After the fetch, the condition field alone decides whether the word is decoded (R183). -/
theorem step_of_fetched_of_not_passed {s : State} (hfetch : s.fetchFault = none)
    (hc : condPassed (condOf s.fetchWord) s.flags = false) : step s = .next s.advance := by
  simp [step, cycle, hfetch, hc]

/-- Settles O7: a fetched word is not decoded when its condition fails, and every meaning is skipped. -/
theorem failedConditionOnlyAdvancesPc : Obligations.FailedConditionOnlyAdvancesPc := by
  unfold Obligations.FailedConditionOnlyAdvancesPc
  constructor
  · intro s hend hallowed hc
    exact step_of_fetched_of_not_passed (s.fetchFault_eq_none_iff.2 ⟨hend, hallowed⟩) hc
  · intro i s hc
    exact exec_of_not_passed hc

end Sys2Proof.Machine
end

section
/-! Proofs of the family 45_block_transfer.md: a block transfer with S = 1 stops (R282). -/

namespace Sys2Proof.Machine

theorem exec_ldmS (s : State) (c : Cond) (ix : Indexing) (rn : Reg) (list : BitVec 16) :
    exec (.ldmS c ix rn list) s = s.stopWith c (.unsupported .blockS) := rfl

theorem exec_stmS (s : State) (c : Cond) (ix : Indexing) (rn : Reg) (list : BitVec 16) :
    exec (.stmS c ix rn list) s = s.stopWith c (.unsupported .blockS) := rfl

/-- Settles O53: with S = 1 both transfers only stop, and a stop whose condition passes answers its fault. -/
theorem blockTransferWithSStops : Obligations.BlockTransferWithSStops := by
  unfold Obligations.BlockTransferWithSStops
  intro s c ix rn list hc
  have hstop : s.stopWith c (.unsupported .blockS) = .fault (.unsupported .blockS) :=
    (s.stopWith_eq_fault_iff c _ _).2 ⟨hc, rfl⟩
  exact ⟨(exec_ldmS s c ix rn list).trans hstop, (exec_stmS s c ix rn list).trans hstop⟩

end Sys2Proof.Machine
end

section
/-! Proofs of the family 46_status_register.md: MRS and MSR with bit 22 = 1, or not admitted, stop (R304). -/

namespace Sys2Proof.Machine

theorem admitCheck_true (f : Feature) : admitCheck true f = none := rfl

theorem admitCheck_false (f : Feature) : admitCheck false f = some (.unsupported f) := rfl

theorem spsrCheck_true : spsrCheck true = some (.unsupported .spsr) := rfl

/-- MRS and the three MSR forms begin with the same two checks: admission, then bit 22 (R304). -/
theorem exec_statusTransfer_eq_execute (s : State) {i : Instr} {c : Cond} {bit22 : Bool} {r : Reg} {o : RotImm}
    (hi : i = .mrs c bit22 r ∨ i = .msrReg c bit22 r ∨ i = .msrRegFlags c bit22 r ∨ i = .msrImmFlags c bit22 o) :
    ∃ checks t, exec i s = s.execute c (admitCheck s.cfg.admitPsr .psr :: spsrCheck bit22 :: checks) t := by
  obtain rfl | rfl | rfl | rfl := hi
  · exact ⟨[psrCheck r], _, rfl⟩
  · exact ⟨[psrCheck r], _, rfl⟩
  · exact ⟨[psrCheck r], _, rfl⟩
  · exact ⟨[], _, rfl⟩

/-- Settles O58: of the two checks all four forms begin with, admission comes first, and bit 22 counts only after it. -/
theorem savedStatusRegisterStops : Obligations.SavedStatusRegisterStops := by
  unfold Obligations.SavedStatusRegisterStops
  intro s c i r o bit22 hc hi
  obtain ⟨checks, t, hexec⟩ := exec_statusTransfer_eq_execute s hi
  rw [hexec, State.execute_eq_fault_iff, State.execute_eq_fault_iff]
  constructor
  · intro hadmit
    rw [hadmit, admitCheck_false, firstFault_some_cons]
    exact ⟨hc, rfl⟩
  · intro hadmit hbit
    rw [hadmit, hbit, admitCheck_true, spsrCheck_true, firstFault_none_cons, firstFault_some_cons]
    exact ⟨hc, rfl⟩

end Sys2Proof.Machine
end

section
/-! Proofs of the family 30_encoding.md, first part: every word the decoder accepts is the word of its instruction. -/

namespace Sys2Proof

/-! ### A word and its fields -/

/-- A bit is the field of width one at its place. -/
theorem ofBool_getLsbD {n : Nat} (w : BitVec n) (i : Nat) : BitVec.ofBool (w.getLsbD i) = w.extractLsb' i 1 := by
  apply BitVec.eq_of_getLsbD_eq
  intro j hj
  obtain rfl : j = 0 := by omega
  simp

theorem extractLsb'_one_of_true {n : Nat} {w : BitVec n} {i : Nat} (h : w.getLsbD i = true) :
    w.extractLsb' i 1 = 0b1#1 := by
  rw [← ofBool_getLsbD, h]
  rfl

theorem extractLsb'_one_of_false {n : Nat} {w : BitVec n} {i : Nat} (h : w.getLsbD i = false) :
    w.extractLsb' i 1 = 0b0#1 := by
  rw [← ofBool_getLsbD, h]
  rfl

/-- A field is its upper part next to its lower part. -/
theorem extractLsb'_split {n : Nat} (w : BitVec n) (start hi lo : Nat) :
    w.extractLsb' start (hi + lo) = w.extractLsb' (start + lo) hi ++ w.extractLsb' start lo :=
  (BitVec.extractLsb'_append_extractLsb'_eq_extractLsb' rfl).symm

/-- A part of a field is a field. -/
theorem extractLsb'_extractLsb' {n : Nat} (w : BitVec n) (start len i k : Nat) (hk : i + k ≤ len) :
    (w.extractLsb' start len).extractLsb' i k = w.extractLsb' (start + i) k := by
  apply BitVec.eq_of_getLsbD_eq
  intro j hj
  simp only [BitVec.getLsbD_extractLsb', hj, decide_true, Bool.true_and, show i + j < len by omega, Nat.add_assoc]

/-- The part of a field whose value is known. -/
theorem extractLsb'_of_field {n start len : Nat} {w : BitVec n} {v : BitVec len} (h : w.extractLsb' start len = v)
    (i k : Nat) (hk : i + k ≤ len) : w.extractLsb' (start + i) k = v.extractLsb' i k := by
  rw [← h, extractLsb'_extractLsb' w start len i k hk]

/-! ### The words of the formats, put together from the fields of a word

Each lemma has the fixed bits of its format as hypotheses: the fields of `w`, side by side, are `w` again. -/

theorem dpImmWord_fields {w : Word} (hcls : classOf w = 0b001#3) :
    dpImmWord (condOf w) (DpOp.ofBits (w.extractLsb' 21 4)) (w.getLsbD 20) (regAt16 w) (regAt12 w) (rotImmOf w) = w := by
  unfold classOf at hcls
  simp only [dpImmWord, condOf, regAt16, regAt12, rotImmOf, Cond.bits_ofBits, DpOp.bits_ofBits, ofBool_getLsbD, ← hcls]
  simp (disch := decide) only [BitVec.extractLsb'_append_extractLsb'_eq_extractLsb']
  exact extractLsb'_all w

theorem dpReg3Word_fields {w : Word} (hcls : classOf w = 0b000#3) (h4 : w.getLsbD 4 = false) :
    dpReg3Word (condOf w) (DpOp.ofBits (w.extractLsb' 21 4)) (w.getLsbD 20) (regAt16 w) (regAt12 w) (shiftedRegOf w) =
      w := by
  unfold classOf at hcls
  simp only [dpReg3Word, condOf, regAt16, regAt12, regAt0, shiftedRegOf, Cond.bits_ofBits, DpOp.bits_ofBits,
    ShiftKind.bits_ofBits, ofBool_getLsbD, ← hcls, ← extractLsb'_one_of_false h4]
  simp (disch := decide) only [BitVec.extractLsb'_append_extractLsb'_eq_extractLsb']
  exact extractLsb'_all w

theorem dpReg4Word_fields {w : Word} (hcls : classOf w = 0b000#3) (h7 : w.getLsbD 7 = false)
    (h4 : w.getLsbD 4 = true) :
    dpReg4Word (condOf w) (DpOp.ofBits (w.extractLsb' 21 4)) (w.getLsbD 20) (regAt16 w) (regAt12 w)
      (regShiftedRegOf w) = w := by
  unfold classOf at hcls
  simp only [dpReg4Word, condOf, regAt16, regAt12, regAt8, regAt0, regShiftedRegOf, Cond.bits_ofBits, DpOp.bits_ofBits,
    ShiftKind.bits_ofBits, ofBool_getLsbD, ← hcls, ← extractLsb'_one_of_false h7, ← extractLsb'_one_of_true h4]
  simp (disch := decide) only [BitVec.extractLsb'_append_extractLsb'_eq_extractLsb']
  exact extractLsb'_all w

theorem multiplyWord_fields {w : Word} (h24 : w.extractLsb' 24 4 = 0b0000#4) (h4 : w.extractLsb' 4 4 = 0b1001#4) :
    multiplyWord (condOf w) (w.extractLsb' 21 3) (w.getLsbD 20) (regAt16 w) (regAt12 w) (regAt8 w) (regAt0 w) = w := by
  simp only [multiplyWord, condOf, regAt16, regAt12, regAt8, regAt0, Cond.bits_ofBits, ofBool_getLsbD, ← h24, ← h4]
  simp (disch := decide) only [BitVec.extractLsb'_append_extractLsb'_eq_extractLsb']
  exact extractLsb'_all w

theorem swapWord_fields {w : Word} (h23 : w.extractLsb' 23 5 = 0b00010#5) (h20 : w.extractLsb' 20 2 = 0b00#2)
    (h8 : w.extractLsb' 8 4 = 0b0000#4) (h4 : w.extractLsb' 4 4 = 0b1001#4) :
    swapWord (condOf w) (w.getLsbD 22) (regAt16 w) (regAt12 w) (regAt0 w) = w := by
  simp only [swapWord, condOf, regAt16, regAt12, regAt0, Cond.bits_ofBits, ofBool_getLsbD, ← h23, ← h20, ← h8, ← h4]
  simp (disch := decide) only [BitVec.extractLsb'_append_extractLsb'_eq_extractLsb']
  exact extractLsb'_all w

/-- Bits 7 and 4 have the same fixed value, so the word is put together first and its fixed bits named after. -/
theorem halfwordWord_fields {w : Word} (hcls : classOf w = 0b000#3) (h7 : w.getLsbD 7 = true)
    (h4 : w.getLsbD 4 = true) :
    halfwordWord (condOf w) (indexingOf w) (w.getLsbD 22) (w.getLsbD 20) (w.extractLsb' 5 2) (regAt16 w) (regAt12 w)
      (w.extractLsb' 8 4) (w.extractLsb' 0 4) = w := by
  have hw : w.extractLsb' 28 4 ++ w.extractLsb' 25 3 ++ w.extractLsb' 24 1 ++ w.extractLsb' 23 1 ++
      w.extractLsb' 22 1 ++ w.extractLsb' 21 1 ++ w.extractLsb' 20 1 ++ w.extractLsb' 16 4 ++ w.extractLsb' 12 4 ++
      w.extractLsb' 8 4 ++ w.extractLsb' 7 1 ++ w.extractLsb' 5 2 ++ w.extractLsb' 4 1 ++ w.extractLsb' 0 4 = w := by
    simp (disch := decide) only [BitVec.extractLsb'_append_extractLsb'_eq_extractLsb']
    exact extractLsb'_all w
  unfold classOf at hcls
  rw [hcls, extractLsb'_one_of_true h7, extractLsb'_one_of_true h4] at hw
  simpa only [halfwordWord, condOf, indexingOf, regAt16, regAt12, Cond.bits_ofBits, ofBool_getLsbD] using hw

theorem transferImmWord_fields {w : Word} (hcls : classOf w = 0b010#3) :
    transferImmWord (condOf w) (indexingOf w) (w.getLsbD 22) (w.getLsbD 20) (regAt16 w) (regAt12 w)
      (w.extractLsb' 0 12) = w := by
  unfold classOf at hcls
  simp only [transferImmWord, condOf, indexingOf, regAt16, regAt12, Cond.bits_ofBits, ofBool_getLsbD, ← hcls]
  simp (disch := decide) only [BitVec.extractLsb'_append_extractLsb'_eq_extractLsb']
  exact extractLsb'_all w

theorem transferRegWord_fields {w : Word} (hcls : classOf w = 0b011#3) (h4 : w.getLsbD 4 = false) :
    transferRegWord (condOf w) (indexingOf w) (w.getLsbD 22) (w.getLsbD 20) (regAt16 w) (regAt12 w)
      (shiftedRegOf w) = w := by
  unfold classOf at hcls
  simp only [transferRegWord, condOf, indexingOf, regAt16, regAt12, regAt0, shiftedRegOf, Cond.bits_ofBits,
    ShiftKind.bits_ofBits, ofBool_getLsbD, ← hcls, ← extractLsb'_one_of_false h4]
  simp (disch := decide) only [BitVec.extractLsb'_append_extractLsb'_eq_extractLsb']
  exact extractLsb'_all w

theorem blockWord_fields {w : Word} (hcls : classOf w = 0b100#3) :
    blockWord (condOf w) (indexingOf w) (w.getLsbD 22) (w.getLsbD 20) (regAt16 w) (w.extractLsb' 0 16) = w := by
  unfold classOf at hcls
  simp only [blockWord, condOf, indexingOf, regAt16, Cond.bits_ofBits, ofBool_getLsbD, ← hcls]
  simp (disch := decide) only [BitVec.extractLsb'_append_extractLsb'_eq_extractLsb']
  exact extractLsb'_all w

theorem branchWord_fields {w : Word} (hcls : classOf w = 0b101#3) :
    (condOf w).bits ++ 0b101#3 ++ BitVec.ofBool (w.getLsbD 24) ++ w.extractLsb' 0 24 = w := by
  unfold classOf at hcls
  simp only [condOf, Cond.bits_ofBits, ofBool_getLsbD, ← hcls]
  simp (disch := decide) only [BitVec.extractLsb'_append_extractLsb'_eq_extractLsb']
  exact extractLsb'_all w

theorem msrRegWord_fields {w : Word} {mask : BitVec 4} (h23 : w.extractLsb' 23 5 = 0b00010#5)
    (h20 : w.extractLsb' 20 2 = 0b10#2) (h16 : w.extractLsb' 16 4 = mask) (h12 : w.extractLsb' 12 4 = 0b1111#4)
    (h4 : w.extractLsb' 4 8 = 0b00000000#8) : msrRegWord (condOf w) (w.getLsbD 22) mask (regAt0 w) = w := by
  simp only [msrRegWord, condOf, regAt0, Cond.bits_ofBits, ofBool_getLsbD, ← h23, ← h20, ← h16, ← h12, ← h4]
  simp (disch := decide) only [BitVec.extractLsb'_append_extractLsb'_eq_extractLsb']
  exact extractLsb'_all w

/-! ### The data-processing instructions by their operation (R88) -/

/-- A compare (opcode 10xx) has no S field of its own: its word is that of S = 1. -/
theorem encode_dpImm (op : DpOp) (c : Cond) (s : Bool) (rn rd : Reg) (o : RotImm)
    (hs : op.bits.extractLsb' 2 2 = 0b10#2 → s = true) : encode (dpImm op c s rn rd o) = dpImmWord c op s rn rd o := by
  cases op with
  | tst | teq | cmp | cmn => rw [hs (by decide)]; rfl
  | _ => rfl

theorem encode_dpReg3 (op : DpOp) (c : Cond) (s : Bool) (rn rd : Reg) (o : ShiftedReg)
    (hs : op.bits.extractLsb' 2 2 = 0b10#2 → s = true) :
    encode (dpReg3 op c s rn rd o) = dpReg3Word c op s rn rd o := by
  cases op with
  | tst | teq | cmp | cmn => rw [hs (by decide)]; rfl
  | _ => rfl

theorem encode_dpReg4 (op : DpOp) (c : Cond) (s : Bool) (rn rd : Reg) (o : RegShiftedReg)
    (hs : op.bits.extractLsb' 2 2 = 0b10#2 → s = true) :
    encode (dpReg4 op c s rn rd o) = dpReg4Word c op s rn rd o := by
  cases op with
  | tst | teq | cmp | cmn => rw [hs (by decide)]; rfl
  | _ => rfl

/-- Bits 24 and 23 are the upper half of the opcode field. -/
theorem bits_ofBits_opcode (w : Word) :
    (DpOp.ofBits (w.extractLsb' 21 4)).bits.extractLsb' 2 2 = w.extractLsb' 23 2 := by
  rw [DpOp.bits_ofBits, extractLsb'_extractLsb' w 21 4 2 2 (by decide)]

/-! ### What each part of the decoder accepts has the word it was read from -/

theorem encode_of_decodeMultiply {w : Word} {i : Instr} (h24 : w.extractLsb' 24 4 = 0b0000#4)
    (h4 : w.extractLsb' 4 4 = 0b1001#4) (h : decodeMultiply w = .instr i) : encode i = w := by
  have hw := multiplyWord_fields h24 h4
  have hlua : w.extractLsb' 21 3 =
      BitVec.ofBool (w.getLsbD 23) ++ BitVec.ofBool (w.getLsbD 22) ++ BitVec.ofBool (w.getLsbD 21) := by
    simp (disch := decide) only [ofBool_getLsbD, BitVec.extractLsb'_append_extractLsb'_eq_extractLsb']
  rw [hlua] at hw
  unfold decodeMultiply at h
  cases hl : w.getLsbD 23 <;> cases hu : w.getLsbD 22 <;> cases ha : w.getLsbD 21 <;> rw [hl, hu, ha] at hw h <;>
    cases h <;> exact hw

theorem encode_of_decodeSwap {w : Word} {i : Instr} (hcls : classOf w = 0b000#3) (h24 : w.getLsbD 24 = true)
    (h4 : w.extractLsb' 4 4 = 0b1001#4) (h : decodeSwap w = .instr i) : encode i = w := by
  unfold decodeSwap at h
  split at h
  · next hfixed =>
    obtain ⟨h23, h20, h8⟩ := hfixed
    have hhigh : w.extractLsb' 23 5 = 0b00010#5 := by
      rw [extractLsb'_split w 23 4 1, extractLsb'_split w 24 3 1, extractLsb'_one_of_true h24,
        extractLsb'_one_of_false h23]
      exact congrArg (fun x => x ++ 0b1#1 ++ 0b0#1) hcls
    have hw := swapWord_fields hhigh h20 h8 h4
    cases hb : w.getLsbD 22 <;> rw [hb] at hw h <;> cases h <;> exact hw
  · cases h

/-- A field of two bits that is not 00 is 01, 10 or 11. -/
theorem eq_of_ne_zero_two (x : BitVec 2) (h : x ≠ 0b00#2) : x = 0b01#2 ∨ x = 0b10#2 ∨ x = 0b11#2 := by
  revert x; decide

theorem encode_of_decodeHalfwordImm {w : Word} {i : Instr} (hcls : classOf w = 0b000#3) (h7 : w.getLsbD 7 = true)
    (h4 : w.getLsbD 4 = true) (hsh : w.extractLsb' 5 2 ≠ 0b00#2) (h22 : w.getLsbD 22 = true)
    (h : decodeHalfwordImm w = .instr i) : encode i = w := by
  let off := w.extractLsb' 8 4 ++ w.extractLsb' 0 4
  have hw : halfwordWord (condOf w) (indexingOf w) true (w.getLsbD 20) (w.extractLsb' 5 2) (regAt16 w) (regAt12 w)
      (off.extractLsb' 4 4) (off.extractLsb' 0 4) = w := by
    rw [BitVec.extractLsb'_append_eq_left, extractLsb'_append_low _ _ 0 4 (by decide), extractLsb'_all, ← h22]
    exact halfwordWord_fields hcls h7 h4
  unfold decodeHalfwordImm at h
  obtain hv | hv | hv := eq_of_ne_zero_two _ hsh <;> cases hl : w.getLsbD 20 <;> rw [hv, hl] at hw <;>
    rw [hv, hl] at h <;> cases h <;> exact hw

theorem encode_of_decodeHalfwordReg {w : Word} {i : Instr} (hcls : classOf w = 0b000#3) (h7 : w.getLsbD 7 = true)
    (h4 : w.getLsbD 4 = true) (hsh : w.extractLsb' 5 2 ≠ 0b00#2) (h22 : w.getLsbD 22 = false)
    (h : decodeHalfwordReg w = .instr i) : encode i = w := by
  have hw := halfwordWord_fields hcls h7 h4
  unfold decodeHalfwordReg at h
  split at h
  · next h8 =>
    rw [h22, h8] at hw
    obtain hv | hv | hv := eq_of_ne_zero_two _ hsh <;> cases hl : w.getLsbD 20 <;> rw [hv, hl] at hw <;>
      rw [hv, hl] at h <;> cases h <;> exact hw
  · cases h

theorem encode_of_decodeExtension {w : Word} {i : Instr} (hcls : classOf w = 0b000#3) (h7 : w.getLsbD 7 = true)
    (h4 : w.getLsbD 4 = true) (h : decodeExtension w = .instr i) : encode i = w := by
  unfold decodeExtension at h
  split at h
  · next hsh =>
    have hlow : w.extractLsb' 4 4 = 0b1001#4 := by
      rw [extractLsb'_split w 4 1 3, extractLsb'_split w 4 2 1, extractLsb'_one_of_true h7, hsh,
        extractLsb'_one_of_true h4]
      rfl
    split at h
    · next h24 => exact encode_of_decodeSwap hcls h24 hlow h
    · next h24 =>
      have hhigh : w.extractLsb' 24 4 = 0b0000#4 := by
        rw [extractLsb'_split w 24 3 1, extractLsb'_one_of_false (Bool.eq_false_iff.2 h24)]
        exact congrArg (· ++ 0b0#1) hcls
      exact encode_of_decodeMultiply hhigh hlow h
  · next hsh =>
    split at h
    · next h22 => exact encode_of_decodeHalfwordImm hcls h7 h4 hsh h22 h
    · next h22 => exact encode_of_decodeHalfwordReg hcls h7 h4 hsh (Bool.eq_false_iff.2 h22) h

theorem encode_of_decodeStatus {w : Word} {i : Instr} (h : decodeStatus w = .instr i) : encode i = w := by
  unfold decodeStatus at h
  split at h
  · next h4 =>
    cases h
    simp only [encode, condOf, regAt0, Cond.bits_ofBits, ← h4]
    simp (disch := decide) only [BitVec.extractLsb'_append_extractLsb'_eq_extractLsb']
    exact extractLsb'_all w
  split at h
  · next hfixed =>
    obtain ⟨h23, h16, h0⟩ := hfixed
    cases h
    simp only [encode, condOf, regAt12, Cond.bits_ofBits, ofBool_getLsbD, ← h23, ← h16, ← h0]
    simp (disch := decide) only [BitVec.extractLsb'_append_extractLsb'_eq_extractLsb']
    exact extractLsb'_all w
  split at h
  · next hfixed =>
    obtain ⟨h23, h4⟩ := hfixed
    cases h
    exact msrRegWord_fields h23 (extractLsb'_of_field h4 16 2 (by decide)) (extractLsb'_of_field h4 12 4 (by decide))
      (extractLsb'_of_field h4 8 4 (by decide)) (extractLsb'_of_field h4 0 8 (by decide))
  split at h
  · next hfixed =>
    obtain ⟨h23, h4⟩ := hfixed
    cases h
    exact msrRegWord_fields h23 (extractLsb'_of_field h4 16 2 (by decide)) (extractLsb'_of_field h4 12 4 (by decide))
      (extractLsb'_of_field h4 8 4 (by decide)) (extractLsb'_of_field h4 0 8 (by decide))
  split at h
  · next hfixed =>
    obtain ⟨h23, h12⟩ := hfixed
    cases h
    simp only [encode, condOf, rotImmOf, Cond.bits_ofBits, ofBool_getLsbD, ← h23, ← h12]
    simp (disch := decide) only [BitVec.extractLsb'_append_extractLsb'_eq_extractLsb']
    exact extractLsb'_all w
  · cases h

theorem encode_decodeTransferImm {w : Word} (hcls : classOf w = 0b010#3) : encode (decodeTransferImm w) = w := by
  have hw := transferImmWord_fields hcls
  unfold decodeTransferImm
  cases hb : w.getLsbD 22 <;> cases hl : w.getLsbD 20 <;> rw [hb, hl] at hw <;> exact hw

theorem encode_decodeTransferReg {w : Word} (hcls : classOf w = 0b011#3) (h4 : w.getLsbD 4 = false) :
    encode (decodeTransferReg w) = w := by
  have hw := transferRegWord_fields hcls h4
  unfold decodeTransferReg
  cases hb : w.getLsbD 22 <;> cases hl : w.getLsbD 20 <;> rw [hb, hl] at hw <;> exact hw

theorem encode_decodeBlock {w : Word} (hcls : classOf w = 0b100#3) : encode (decodeBlock w) = w := by
  have hw := blockWord_fields hcls
  unfold decodeBlock
  cases hb : w.getLsbD 22 <;> cases hl : w.getLsbD 20 <;> rw [hb, hl] at hw <;> exact hw

theorem encode_decodeBranch {w : Word} (hcls : classOf w = 0b101#3) : encode (decodeBranch w) = w := by
  have hw := branchWord_fields hcls
  unfold decodeBranch
  cases hl : w.getLsbD 24 <;> rw [hl] at hw <;> exact hw

/-- The eight classes; the decoder's last branch is left with 101. -/
theorem eq_of_ne_seven (x : BitVec 3) (h6 : ¬(x = 0b110#3 ∨ x = 0b111#3)) (h0 : x ≠ 0b000#3) (h1 : x ≠ 0b001#3)
    (h2 : x ≠ 0b010#3) (h3 : x ≠ 0b011#3) (h4 : x ≠ 0b100#3) : x = 0b101#3 := by
  bv_omega

/-- A word outside the compare space whose opcode is a compare has S = 1. -/
theorem bit20_of_not_compareSpace {w : Word} (hcls : classOf w = 0b000#3 ∨ classOf w = 0b001#3)
    (h : ¬((classOf w = 0b000#3 ∨ classOf w = 0b001#3) ∧ w.extractLsb' 23 2 = 0b10#2 ∧ w.getLsbD 20 = false)) :
    (DpOp.ofBits (w.extractLsb' 21 4)).bits.extractLsb' 2 2 = 0b10#2 → w.getLsbD 20 = true := by
  rw [bits_ofBits_opcode]
  intro hop
  exact Bool.eq_true_of_not_eq_false fun h20 => h ⟨hcls, hop, h20⟩

/-- Settles O2, branch by branch of the decoder: the fields it reads and the fixed bits it tests are all of the word. -/
theorem encodeOfDecode : Obligations.EncodeOfDecode := by
  unfold Obligations.EncodeOfDecode
  intro w i h
  unfold decode at h
  split at h
  · cases h
  next hreserved =>
  split at h
  · next hext => exact encode_of_decodeExtension hext.1 hext.2.1 hext.2.2 h
  next hext =>
  split at h
  · exact encode_of_decodeStatus h
  next hspace =>
  split at h
  · next hcls =>
    cases h
    rw [encode_dpImm _ _ _ _ _ _ (bit20_of_not_compareSpace (.inr hcls) hspace), dpImmWord_fields hcls]
  next h1 =>
  split at h
  · next hcls =>
    have hs := bit20_of_not_compareSpace (.inl hcls) hspace
    split at h
    · next h4 =>
      cases h
      have h7 : w.getLsbD 7 = false := Bool.eq_false_iff.2 fun h7 => hext ⟨hcls, h7, h4⟩
      rw [encode_dpReg4 _ _ _ _ _ _ hs, dpReg4Word_fields hcls h7 h4]
    · next h4 =>
      cases h
      rw [encode_dpReg3 _ _ _ _ _ _ hs, dpReg3Word_fields hcls (Bool.eq_false_iff.2 h4)]
  next h0 =>
  split at h
  · next hcls => cases h; exact encode_decodeTransferImm hcls
  next h2 =>
  split at h
  · next hcls =>
    split at h
    · cases h
    · next h4 => cases h; exact encode_decodeTransferReg hcls (Bool.eq_false_iff.2 h4)
  next h3 =>
  split at h
  · next hcls => cases h; exact encode_decodeBlock hcls
  · next h4 => cases h; exact encode_decodeBranch (eq_of_ne_seven _ hreserved h0 h1 h2 h3 h4)

end Sys2Proof
end

section
/-! Proofs of the family 30_encoding.md, second part: which part of the decoder answers for a word, and that it reads
every instruction back from its word. -/

namespace Sys2Proof

/-! ### The branches of the decoder (R98), by the fixed bits that choose them -/

theorem decode_of_noFormatClass {w : Word} (h : classOf w = 0b110#3 ∨ classOf w = 0b111#3) :
    decode w = .reserved .noFormatClass := by
  simp only [decode, if_pos h]

theorem decode_of_extension {w : Word} (hcls : classOf w = 0b000#3) (h7 : w.getLsbD 7 = true)
    (h4 : w.getLsbD 4 = true) : decode w = decodeExtension w := by
  simp [decode, hcls, h7, h4, -BitVec.getLsbD_eq_getElem]

theorem decode_of_compareSpace {w : Word} (hcls : classOf w = 0b000#3 ∨ classOf w = 0b001#3)
    (hext : ¬(classOf w = 0b000#3 ∧ w.getLsbD 7 = true ∧ w.getLsbD 4 = true)) (hop : w.extractLsb' 23 2 = 0b10#2)
    (h20 : w.getLsbD 20 = false) : decode w = decodeStatus w := by
  have h6 : ¬(classOf w = 0b110#3 ∨ classOf w = 0b111#3) := by
    rcases hcls with h | h <;> rw [h] <;> decide
  simp only [decode, if_neg h6, if_neg hext, if_pos (show _ ∧ _ ∧ _ from ⟨hcls, hop, h20⟩)]

theorem not_compareSpace_of_imp {w : Word} (h : w.extractLsb' 23 2 = 0b10#2 → w.getLsbD 20 = true) :
    ¬(w.extractLsb' 23 2 = 0b10#2 ∧ w.getLsbD 20 = false) :=
  fun hs => Bool.false_ne_true (hs.2.symm.trans (h hs.1))

theorem decode_of_dpImm {w : Word} (hcls : classOf w = 0b001#3)
    (hspace : w.extractLsb' 23 2 = 0b10#2 → w.getLsbD 20 = true) :
    decode w = .instr (dpImm (DpOp.ofBits (w.extractLsb' 21 4)) (condOf w) (w.getLsbD 20) (regAt16 w) (regAt12 w)
      (rotImmOf w)) := by
  have hs := not_compareSpace_of_imp hspace
  simp [decode, hcls, hs, -BitVec.getLsbD_eq_getElem]

theorem decode_of_dpReg3 {w : Word} (hcls : classOf w = 0b000#3) (h4 : w.getLsbD 4 = false)
    (hspace : w.extractLsb' 23 2 = 0b10#2 → w.getLsbD 20 = true) :
    decode w = .instr (dpReg3 (DpOp.ofBits (w.extractLsb' 21 4)) (condOf w) (w.getLsbD 20) (regAt16 w) (regAt12 w)
      (shiftedRegOf w)) := by
  have hs := not_compareSpace_of_imp hspace
  simp [decode, hcls, h4, hs, -BitVec.getLsbD_eq_getElem]

theorem decode_of_dpReg4 {w : Word} (hcls : classOf w = 0b000#3) (h7 : w.getLsbD 7 = false)
    (h4 : w.getLsbD 4 = true) (hspace : w.extractLsb' 23 2 = 0b10#2 → w.getLsbD 20 = true) :
    decode w = .instr (dpReg4 (DpOp.ofBits (w.extractLsb' 21 4)) (condOf w) (w.getLsbD 20) (regAt16 w) (regAt12 w)
      (regShiftedRegOf w)) := by
  have hs := not_compareSpace_of_imp hspace
  simp [decode, hcls, h7, h4, hs, -BitVec.getLsbD_eq_getElem]

theorem decode_of_transferImm {w : Word} (hcls : classOf w = 0b010#3) : decode w = .instr (decodeTransferImm w) := by
  simp [decode, hcls]

theorem decode_of_transferReg {w : Word} (hcls : classOf w = 0b011#3) (h4 : w.getLsbD 4 = false) :
    decode w = .instr (decodeTransferReg w) := by
  simp [decode, hcls, h4, -BitVec.getLsbD_eq_getElem]

theorem decode_of_registerOffsetBit4 {w : Word} (hcls : classOf w = 0b011#3) (h4 : w.getLsbD 4 = true) :
    decode w = .reserved .registerOffsetBit4 := by
  simp [decode, hcls, h4, -BitVec.getLsbD_eq_getElem]

theorem decode_of_block {w : Word} (hcls : classOf w = 0b100#3) : decode w = .instr (decodeBlock w) := by
  simp [decode, hcls]

theorem decode_of_branch {w : Word} (hcls : classOf w = 0b101#3) : decode w = .instr (decodeBranch w) := by
  simp [decode, hcls]

/-! ### The fields of the word of a format

Two words put together from parts of the same widths are equal exactly when the parts are; so a word is taken apart by
writing its own fields beside the parts it was made from. -/

theorem append_eq_append_iff {a b : Nat} (x x' : BitVec a) (y y' : BitVec b) :
    x ++ y = x' ++ y' ↔ x = x' ∧ y = y' := by
  constructor
  · intro h
    have hx := congrArg (BitVec.extractLsb' b a) h
    have hy := congrArg (BitVec.extractLsb' 0 b) h
    simp only [BitVec.extractLsb'_append_eq_left] at hx
    rw [extractLsb'_append_low _ _ 0 b (by omega), extractLsb'_append_low _ _ 0 b (by omega), extractLsb'_all,
      extractLsb'_all] at hy
    exact ⟨hx, hy⟩
  · rintro ⟨rfl, rfl⟩; rfl

theorem ofBool_eq_ofBool_iff (a b : Bool) : BitVec.ofBool a = BitVec.ofBool b ↔ a = b := by
  cases a <;> cases b <;> decide

theorem ofBool_eq_one_iff (b : Bool) : BitVec.ofBool b = 0b1#1 ↔ b = true := by cases b <;> decide

theorem ofBool_eq_zero_iff (b : Bool) : BitVec.ofBool b = 0b0#1 ↔ b = false := by cases b <;> decide

/-- A bit of a field whose value is known. -/
theorem getLsbD_of_field {n start len : Nat} {w : BitVec n} {v : BitVec len} (h : w.extractLsb' start len = v)
    (i : Nat) (hi : i < len) : w.getLsbD (start + i) = v.getLsbD i := by
  rw [← h, BitVec.getLsbD_extractLsb', decide_eq_true hi, Bool.true_and]

theorem fields_of_dpImmWord {w : Word} {c : Cond} {op : DpOp} {s : Bool} {rn rd : Reg} {o : RotImm}
    (h : w = dpImmWord c op s rn rd o) :
    w.extractLsb' 28 4 = c.bits ∧ w.extractLsb' 25 3 = 0b001#3 ∧ w.extractLsb' 21 4 = op.bits ∧ w.getLsbD 20 = s ∧
      w.extractLsb' 16 4 = rn ∧ w.extractLsb' 12 4 = rd ∧ w.extractLsb' 8 4 = o.rot ∧ w.extractLsb' 0 8 = o.imm := by
  have hw : w.extractLsb' 28 4 ++ w.extractLsb' 25 3 ++ w.extractLsb' 21 4 ++ BitVec.ofBool (w.getLsbD 20) ++
      w.extractLsb' 16 4 ++ w.extractLsb' 12 4 ++ w.extractLsb' 8 4 ++ w.extractLsb' 0 8 = w := by
    simp (disch := decide) only [ofBool_getLsbD, BitVec.extractLsb'_append_extractLsb'_eq_extractLsb']
    exact extractLsb'_all w
  have hparts := hw.trans h
  simpa only [dpImmWord, append_eq_append_iff, ofBool_eq_ofBool_iff, and_assoc] using hparts

theorem fields_of_dpReg3Word {w : Word} {c : Cond} {op : DpOp} {s : Bool} {rn rd : Reg} {o : ShiftedReg}
    (h : w = dpReg3Word c op s rn rd o) :
    w.extractLsb' 28 4 = c.bits ∧ w.extractLsb' 25 3 = 0b000#3 ∧ w.extractLsb' 21 4 = op.bits ∧ w.getLsbD 20 = s ∧
      w.extractLsb' 16 4 = rn ∧ w.extractLsb' 12 4 = rd ∧ w.extractLsb' 7 5 = o.amount ∧
      w.extractLsb' 5 2 = o.kind.bits ∧ w.getLsbD 4 = false ∧ w.extractLsb' 0 4 = o.rm := by
  have hw : w.extractLsb' 28 4 ++ w.extractLsb' 25 3 ++ w.extractLsb' 21 4 ++ BitVec.ofBool (w.getLsbD 20) ++
      w.extractLsb' 16 4 ++ w.extractLsb' 12 4 ++ w.extractLsb' 7 5 ++ w.extractLsb' 5 2 ++
      BitVec.ofBool (w.getLsbD 4) ++ w.extractLsb' 0 4 = w := by
    simp (disch := decide) only [ofBool_getLsbD, BitVec.extractLsb'_append_extractLsb'_eq_extractLsb']
    exact extractLsb'_all w
  have hparts := hw.trans h
  simpa only [dpReg3Word, append_eq_append_iff, ofBool_eq_ofBool_iff, ofBool_eq_zero_iff, and_assoc] using hparts

theorem fields_of_dpReg4Word {w : Word} {c : Cond} {op : DpOp} {s : Bool} {rn rd : Reg} {o : RegShiftedReg}
    (h : w = dpReg4Word c op s rn rd o) :
    w.extractLsb' 28 4 = c.bits ∧ w.extractLsb' 25 3 = 0b000#3 ∧ w.extractLsb' 21 4 = op.bits ∧ w.getLsbD 20 = s ∧
      w.extractLsb' 16 4 = rn ∧ w.extractLsb' 12 4 = rd ∧ w.extractLsb' 8 4 = o.rs ∧ w.getLsbD 7 = false ∧
      w.extractLsb' 5 2 = o.kind.bits ∧ w.getLsbD 4 = true ∧ w.extractLsb' 0 4 = o.rm := by
  have hw : w.extractLsb' 28 4 ++ w.extractLsb' 25 3 ++ w.extractLsb' 21 4 ++ BitVec.ofBool (w.getLsbD 20) ++
      w.extractLsb' 16 4 ++ w.extractLsb' 12 4 ++ w.extractLsb' 8 4 ++ BitVec.ofBool (w.getLsbD 7) ++
      w.extractLsb' 5 2 ++ BitVec.ofBool (w.getLsbD 4) ++ w.extractLsb' 0 4 = w := by
    simp (disch := decide) only [ofBool_getLsbD, BitVec.extractLsb'_append_extractLsb'_eq_extractLsb']
    exact extractLsb'_all w
  have hparts := hw.trans h
  simpa only [dpReg4Word, append_eq_append_iff, ofBool_eq_ofBool_iff, ofBool_eq_one_iff, ofBool_eq_zero_iff,
    and_assoc] using hparts

theorem fields_of_multiplyWord {w : Word} {c : Cond} {lua : BitVec 3} {s : Bool} {r16 r12 rs rm : Reg}
    (h : w = multiplyWord c lua s r16 r12 rs rm) :
    w.extractLsb' 28 4 = c.bits ∧ w.extractLsb' 24 4 = 0b0000#4 ∧ w.extractLsb' 21 3 = lua ∧ w.getLsbD 20 = s ∧
      w.extractLsb' 16 4 = r16 ∧ w.extractLsb' 12 4 = r12 ∧ w.extractLsb' 8 4 = rs ∧ w.extractLsb' 4 4 = 0b1001#4 ∧
      w.extractLsb' 0 4 = rm := by
  have hw : w.extractLsb' 28 4 ++ w.extractLsb' 24 4 ++ w.extractLsb' 21 3 ++ BitVec.ofBool (w.getLsbD 20) ++
      w.extractLsb' 16 4 ++ w.extractLsb' 12 4 ++ w.extractLsb' 8 4 ++ w.extractLsb' 4 4 ++ w.extractLsb' 0 4 = w := by
    simp (disch := decide) only [ofBool_getLsbD, BitVec.extractLsb'_append_extractLsb'_eq_extractLsb']
    exact extractLsb'_all w
  have hparts := hw.trans h
  simpa only [multiplyWord, append_eq_append_iff, ofBool_eq_ofBool_iff, and_assoc] using hparts

theorem fields_of_swapWord {w : Word} {c : Cond} {b : Bool} {rn rd rm : Reg}
    (h : w = swapWord c b rn rd rm) :
    w.extractLsb' 28 4 = c.bits ∧ w.extractLsb' 23 5 = 0b00010#5 ∧ w.getLsbD 22 = b ∧ w.extractLsb' 20 2 = 0b00#2 ∧
      w.extractLsb' 16 4 = rn ∧ w.extractLsb' 12 4 = rd ∧ w.extractLsb' 8 4 = 0b0000#4 ∧
      w.extractLsb' 4 4 = 0b1001#4 ∧ w.extractLsb' 0 4 = rm := by
  have hw : w.extractLsb' 28 4 ++ w.extractLsb' 23 5 ++ BitVec.ofBool (w.getLsbD 22) ++ w.extractLsb' 20 2 ++
      w.extractLsb' 16 4 ++ w.extractLsb' 12 4 ++ w.extractLsb' 8 4 ++ w.extractLsb' 4 4 ++ w.extractLsb' 0 4 = w := by
    simp (disch := decide) only [ofBool_getLsbD, BitVec.extractLsb'_append_extractLsb'_eq_extractLsb']
    exact extractLsb'_all w
  have hparts := hw.trans h
  simpa only [swapWord, append_eq_append_iff, ofBool_eq_ofBool_iff, and_assoc] using hparts

theorem fields_of_halfwordWord {w : Word} {c : Cond} {ix : Indexing} {imm l : Bool} {sh : BitVec 2} {rn rd : Reg} {hi lo : BitVec 4}
    (h : w = halfwordWord c ix imm l sh rn rd hi lo) :
    w.extractLsb' 28 4 = c.bits ∧ w.extractLsb' 25 3 = 0b000#3 ∧ w.getLsbD 24 = ix.p ∧ w.getLsbD 23 = ix.u ∧
      w.getLsbD 22 = imm ∧ w.getLsbD 21 = ix.w ∧ w.getLsbD 20 = l ∧ w.extractLsb' 16 4 = rn ∧
      w.extractLsb' 12 4 = rd ∧ w.extractLsb' 8 4 = hi ∧ w.getLsbD 7 = true ∧ w.extractLsb' 5 2 = sh ∧
      w.getLsbD 4 = true ∧ w.extractLsb' 0 4 = lo := by
  have hw : w.extractLsb' 28 4 ++ w.extractLsb' 25 3 ++ BitVec.ofBool (w.getLsbD 24) ++
      BitVec.ofBool (w.getLsbD 23) ++ BitVec.ofBool (w.getLsbD 22) ++ BitVec.ofBool (w.getLsbD 21) ++
      BitVec.ofBool (w.getLsbD 20) ++ w.extractLsb' 16 4 ++ w.extractLsb' 12 4 ++ w.extractLsb' 8 4 ++
      BitVec.ofBool (w.getLsbD 7) ++ w.extractLsb' 5 2 ++ BitVec.ofBool (w.getLsbD 4) ++ w.extractLsb' 0 4 = w := by
    simp (disch := decide) only [ofBool_getLsbD, BitVec.extractLsb'_append_extractLsb'_eq_extractLsb']
    exact extractLsb'_all w
  have hparts := hw.trans h
  simpa only [halfwordWord, append_eq_append_iff, ofBool_eq_ofBool_iff, ofBool_eq_one_iff, and_assoc] using hparts

theorem fields_of_transferImmWord {w : Word} {c : Cond} {ix : Indexing} {b l : Bool} {rn rd : Reg} {off : BitVec 12}
    (h : w = transferImmWord c ix b l rn rd off) :
    w.extractLsb' 28 4 = c.bits ∧ w.extractLsb' 25 3 = 0b010#3 ∧ w.getLsbD 24 = ix.p ∧ w.getLsbD 23 = ix.u ∧
      w.getLsbD 22 = b ∧ w.getLsbD 21 = ix.w ∧ w.getLsbD 20 = l ∧ w.extractLsb' 16 4 = rn ∧
      w.extractLsb' 12 4 = rd ∧ w.extractLsb' 0 12 = off := by
  have hw : w.extractLsb' 28 4 ++ w.extractLsb' 25 3 ++ BitVec.ofBool (w.getLsbD 24) ++
      BitVec.ofBool (w.getLsbD 23) ++ BitVec.ofBool (w.getLsbD 22) ++ BitVec.ofBool (w.getLsbD 21) ++
      BitVec.ofBool (w.getLsbD 20) ++ w.extractLsb' 16 4 ++ w.extractLsb' 12 4 ++ w.extractLsb' 0 12 = w := by
    simp (disch := decide) only [ofBool_getLsbD, BitVec.extractLsb'_append_extractLsb'_eq_extractLsb']
    exact extractLsb'_all w
  have hparts := hw.trans h
  simpa only [transferImmWord, append_eq_append_iff, ofBool_eq_ofBool_iff, and_assoc] using hparts

theorem fields_of_transferRegWord {w : Word} {c : Cond} {ix : Indexing} {b l : Bool} {rn rd : Reg} {o : ShiftedReg}
    (h : w = transferRegWord c ix b l rn rd o) :
    w.extractLsb' 28 4 = c.bits ∧ w.extractLsb' 25 3 = 0b011#3 ∧ w.getLsbD 24 = ix.p ∧ w.getLsbD 23 = ix.u ∧
      w.getLsbD 22 = b ∧ w.getLsbD 21 = ix.w ∧ w.getLsbD 20 = l ∧ w.extractLsb' 16 4 = rn ∧
      w.extractLsb' 12 4 = rd ∧ w.extractLsb' 7 5 = o.amount ∧ w.extractLsb' 5 2 = o.kind.bits ∧
      w.getLsbD 4 = false ∧ w.extractLsb' 0 4 = o.rm := by
  have hw : w.extractLsb' 28 4 ++ w.extractLsb' 25 3 ++ BitVec.ofBool (w.getLsbD 24) ++
      BitVec.ofBool (w.getLsbD 23) ++ BitVec.ofBool (w.getLsbD 22) ++ BitVec.ofBool (w.getLsbD 21) ++
      BitVec.ofBool (w.getLsbD 20) ++ w.extractLsb' 16 4 ++ w.extractLsb' 12 4 ++ w.extractLsb' 7 5 ++
      w.extractLsb' 5 2 ++ BitVec.ofBool (w.getLsbD 4) ++ w.extractLsb' 0 4 = w := by
    simp (disch := decide) only [ofBool_getLsbD, BitVec.extractLsb'_append_extractLsb'_eq_extractLsb']
    exact extractLsb'_all w
  have hparts := hw.trans h
  simpa only [transferRegWord, append_eq_append_iff, ofBool_eq_ofBool_iff, ofBool_eq_zero_iff, and_assoc] using hparts

theorem fields_of_blockWord {w : Word} {c : Cond} {ix : Indexing} {b l : Bool} {rn : Reg} {list : BitVec 16}
    (h : w = blockWord c ix b l rn list) :
    w.extractLsb' 28 4 = c.bits ∧ w.extractLsb' 25 3 = 0b100#3 ∧ w.getLsbD 24 = ix.p ∧ w.getLsbD 23 = ix.u ∧
      w.getLsbD 22 = b ∧ w.getLsbD 21 = ix.w ∧ w.getLsbD 20 = l ∧ w.extractLsb' 16 4 = rn ∧ w.extractLsb' 0 16 = list := by
  have hw : w.extractLsb' 28 4 ++ w.extractLsb' 25 3 ++ BitVec.ofBool (w.getLsbD 24) ++
      BitVec.ofBool (w.getLsbD 23) ++ BitVec.ofBool (w.getLsbD 22) ++ BitVec.ofBool (w.getLsbD 21) ++
      BitVec.ofBool (w.getLsbD 20) ++ w.extractLsb' 16 4 ++ w.extractLsb' 0 16 = w := by
    simp (disch := decide) only [ofBool_getLsbD, BitVec.extractLsb'_append_extractLsb'_eq_extractLsb']
    exact extractLsb'_all w
  have hparts := hw.trans h
  simpa only [blockWord, append_eq_append_iff, ofBool_eq_ofBool_iff, and_assoc] using hparts

theorem fields_of_branchWord {w : Word} {c : Cond} {l : Bool} {off : BitVec 24}
    (h : w = c.bits ++ 0b101#3 ++ BitVec.ofBool l ++ off) :
    w.extractLsb' 28 4 = c.bits ∧ w.extractLsb' 25 3 = 0b101#3 ∧ w.getLsbD 24 = l ∧ w.extractLsb' 0 24 = off := by
  have hw : w.extractLsb' 28 4 ++ w.extractLsb' 25 3 ++ BitVec.ofBool (w.getLsbD 24) ++ w.extractLsb' 0 24 = w := by
    simp (disch := decide) only [ofBool_getLsbD, BitVec.extractLsb'_append_extractLsb'_eq_extractLsb']
    exact extractLsb'_all w
  have hparts := hw.trans h
  simpa only [append_eq_append_iff, ofBool_eq_ofBool_iff, and_assoc] using hparts

theorem fields_of_bxWord {w : Word} {c : Cond} {rn : Reg}
    (h : w = c.bits ++ 0b000100101111111111110001#24 ++ rn) :
    w.extractLsb' 28 4 = c.bits ∧ w.extractLsb' 4 24 = 0b000100101111111111110001#24 ∧ w.extractLsb' 0 4 = rn := by
  have hw : w.extractLsb' 28 4 ++ w.extractLsb' 4 24 ++ w.extractLsb' 0 4 = w := by
    simp (disch := decide) only [BitVec.extractLsb'_append_extractLsb'_eq_extractLsb']
    exact extractLsb'_all w
  have hparts := hw.trans h
  simpa only [append_eq_append_iff, and_assoc] using hparts

theorem fields_of_mrsWord {w : Word} {c : Cond} {ps : Bool} {rd : Reg}
    (h : w = c.bits ++ 0b00010#5 ++ BitVec.ofBool ps ++ 0b001111#6 ++ rd ++ 0#12) :
    w.extractLsb' 28 4 = c.bits ∧ w.extractLsb' 23 5 = 0b00010#5 ∧ w.getLsbD 22 = ps ∧
      w.extractLsb' 16 6 = 0b001111#6 ∧ w.extractLsb' 12 4 = rd ∧ w.extractLsb' 0 12 = 0#12 := by
  have hw : w.extractLsb' 28 4 ++ w.extractLsb' 23 5 ++ BitVec.ofBool (w.getLsbD 22) ++ w.extractLsb' 16 6 ++
      w.extractLsb' 12 4 ++ w.extractLsb' 0 12 = w := by
    simp (disch := decide) only [ofBool_getLsbD, BitVec.extractLsb'_append_extractLsb'_eq_extractLsb']
    exact extractLsb'_all w
  have hparts := hw.trans h
  simpa only [append_eq_append_iff, ofBool_eq_ofBool_iff, and_assoc] using hparts

theorem fields_of_msrRegWord {w : Word} {c : Cond} {pd : Bool} {mask : BitVec 4} {rm : Reg}
    (h : w = msrRegWord c pd mask rm) :
    w.extractLsb' 28 4 = c.bits ∧ w.extractLsb' 23 5 = 0b00010#5 ∧ w.getLsbD 22 = pd ∧ w.extractLsb' 20 2 = 0b10#2 ∧
      w.extractLsb' 16 4 = mask ∧ w.extractLsb' 12 4 = 0b1111#4 ∧ w.extractLsb' 4 8 = 0b00000000#8 ∧
      w.extractLsb' 0 4 = rm := by
  have hw : w.extractLsb' 28 4 ++ w.extractLsb' 23 5 ++ BitVec.ofBool (w.getLsbD 22) ++ w.extractLsb' 20 2 ++
      w.extractLsb' 16 4 ++ w.extractLsb' 12 4 ++ w.extractLsb' 4 8 ++ w.extractLsb' 0 4 = w := by
    simp (disch := decide) only [ofBool_getLsbD, BitVec.extractLsb'_append_extractLsb'_eq_extractLsb']
    exact extractLsb'_all w
  have hparts := hw.trans h
  simpa only [msrRegWord, append_eq_append_iff, ofBool_eq_ofBool_iff, and_assoc] using hparts

theorem fields_of_msrImmWord {w : Word} {c : Cond} {pd : Bool} {o : RotImm}
    (h : w = c.bits ++ 0b00110#5 ++ BitVec.ofBool pd ++ 0b1010001111#10 ++ o.rot ++ o.imm) :
    w.extractLsb' 28 4 = c.bits ∧ w.extractLsb' 23 5 = 0b00110#5 ∧ w.getLsbD 22 = pd ∧
      w.extractLsb' 12 10 = 0b1010001111#10 ∧ w.extractLsb' 8 4 = o.rot ∧ w.extractLsb' 0 8 = o.imm := by
  have hw : w.extractLsb' 28 4 ++ w.extractLsb' 23 5 ++ BitVec.ofBool (w.getLsbD 22) ++ w.extractLsb' 12 10 ++
      w.extractLsb' 8 4 ++ w.extractLsb' 0 8 = w := by
    simp (disch := decide) only [ofBool_getLsbD, BitVec.extractLsb'_append_extractLsb'_eq_extractLsb']
    exact extractLsb'_all w
  have hparts := hw.trans h
  simpa only [append_eq_append_iff, ofBool_eq_ofBool_iff, and_assoc] using hparts

/-! ### The decoder on the word of each format -/

/-- The opcode field of a word chooses the compare space exactly when its operation is a compare. -/
theorem bit20_of_opcode {w : Word} {op : DpOp} {s : Bool} (hop : w.extractLsb' 21 4 = op.bits)
    (h20 : w.getLsbD 20 = s) (hs : op.bits.extractLsb' 2 2 = 0b10#2 → s = true) :
    w.extractLsb' 23 2 = 0b10#2 → w.getLsbD 20 = true := by
  intro h
  rw [h20]
  exact hs (by rw [← h, ← extractLsb'_of_field hop 2 2 (by decide)])

theorem decode_dpImmWord (op : DpOp) (c : Cond) (s : Bool) (rn rd : Reg) (o : RotImm)
    (hs : op.bits.extractLsb' 2 2 = 0b10#2 → s = true) :
    decode (dpImmWord c op s rn rd o) = .instr (dpImm op c s rn rd o) := by
  obtain ⟨hc, hcls, hop, h20, hrn, hrd, hrot, himm⟩ := fields_of_dpImmWord (rfl : dpImmWord c op s rn rd o = _)
  rw [decode_of_dpImm hcls (bit20_of_opcode hop h20 hs)]
  simp only [condOf, regAt16, regAt12, rotImmOf, hc, hop, h20, hrn, hrd, hrot, himm, Cond.ofBits_bits,
    DpOp.ofBits_bits]

theorem decode_dpReg3Word (op : DpOp) (c : Cond) (s : Bool) (rn rd : Reg) (o : ShiftedReg)
    (hs : op.bits.extractLsb' 2 2 = 0b10#2 → s = true) :
    decode (dpReg3Word c op s rn rd o) = .instr (dpReg3 op c s rn rd o) := by
  obtain ⟨hc, hcls, hop, h20, hrn, hrd, hamount, hkind, h4, hrm⟩ :=
    fields_of_dpReg3Word (rfl : dpReg3Word c op s rn rd o = _)
  rw [decode_of_dpReg3 hcls h4 (bit20_of_opcode hop h20 hs)]
  simp only [condOf, regAt16, regAt12, regAt0, shiftedRegOf, hc, hop, h20, hrn, hrd, hamount, hkind, hrm,
    Cond.ofBits_bits, DpOp.ofBits_bits, ShiftKind.ofBits_bits]

theorem decode_dpReg4Word (op : DpOp) (c : Cond) (s : Bool) (rn rd : Reg) (o : RegShiftedReg)
    (hs : op.bits.extractLsb' 2 2 = 0b10#2 → s = true) :
    decode (dpReg4Word c op s rn rd o) = .instr (dpReg4 op c s rn rd o) := by
  obtain ⟨hc, hcls, hop, h20, hrn, hrd, hrs, h7, hkind, h4, hrm⟩ :=
    fields_of_dpReg4Word (rfl : dpReg4Word c op s rn rd o = _)
  rw [decode_of_dpReg4 hcls h7 h4 (bit20_of_opcode hop h20 hs)]
  simp only [condOf, regAt16, regAt12, regAt8, regAt0, regShiftedRegOf, hc, hop, h20, hrn, hrd, hrs, hkind, hrm,
    Cond.ofBits_bits, DpOp.ofBits_bits, ShiftKind.ofBits_bits]

/-- The bits L, U and A choose among the multiplies (R89). -/
theorem decode_multiplyWord (c : Cond) (lua : BitVec 3) (s : Bool) (r16 r12 rs rm : Reg) :
    decode (multiplyWord c lua s r16 r12 rs rm) =
      if !lua.getLsbD 2 then
        if lua.getLsbD 1 then .reserved .shortMultiplyU
        else if lua.getLsbD 0 then .instr (.mla c s r16 r12 rs rm) else .instr (.mul c s r16 r12 rs rm)
      else if lua.getLsbD 1 then
        if lua.getLsbD 0 then .instr (.smlal c s r16 r12 rs rm) else .instr (.smull c s r16 r12 rs rm)
      else if lua.getLsbD 0 then .instr (.umlal c s r16 r12 rs rm) else .instr (.umull c s r16 r12 rs rm) := by
  generalize hw : multiplyWord c lua s r16 r12 rs rm = w
  obtain ⟨hc, hhigh, hlua, h20, h16, h12, hrs, hlow, hrm⟩ := fields_of_multiplyWord hw.symm
  have h24 : w.getLsbD 24 = false := getLsbD_of_field hhigh 0 (by decide)
  have hsh : w.extractLsb' 5 2 = 0b00#2 := extractLsb'_of_field hlow 1 2 (by decide)
  have hl : w.getLsbD 23 = lua.getLsbD 2 := getLsbD_of_field hlua 2 (by decide)
  have hu : w.getLsbD 22 = lua.getLsbD 1 := getLsbD_of_field hlua 1 (by decide)
  have ha : w.getLsbD 21 = lua.getLsbD 0 := getLsbD_of_field hlua 0 (by decide)
  rw [decode_of_extension (extractLsb'_of_field hhigh 1 3 (by decide)) (getLsbD_of_field hlow 3 (by decide))
    (getLsbD_of_field hlow 0 (by decide)), decodeExtension, if_pos hsh, h24, if_neg Bool.false_ne_true]
  simp only [decodeMultiply, condOf, regAt16, regAt12, regAt8, regAt0, hl, hu, ha, hc, h20, h16, h12, hrs, hrm,
    Cond.ofBits_bits]

theorem decode_swapWord (c : Cond) (b : Bool) (rn rd rm : Reg) :
    decode (swapWord c b rn rd rm) = if b then .instr (.swpb c rn rd rm) else .instr (.swp c rn rd rm) := by
  generalize hw : swapWord c b rn rd rm = w
  obtain ⟨hc, hhigh, h22, h20, hrn, hrd, h8, hlow, hrm⟩ := fields_of_swapWord hw.symm
  have h24 : w.getLsbD 24 = true := getLsbD_of_field hhigh 1 (by decide)
  have h23 : w.getLsbD 23 = false := getLsbD_of_field hhigh 0 (by decide)
  have hsh : w.extractLsb' 5 2 = 0b00#2 := extractLsb'_of_field hlow 1 2 (by decide)
  rw [decode_of_extension (extractLsb'_of_field hhigh 2 3 (by decide)) (getLsbD_of_field hlow 3 (by decide))
    (getLsbD_of_field hlow 0 (by decide)), decodeExtension, if_pos hsh, if_pos h24, decodeSwap,
    if_pos ⟨h23, h20, h8⟩, h22]
  simp only [condOf, regAt16, regAt12, regAt0, hc, hrn, hrd, hrm, Cond.ofBits_bits]

/-- The immediate offset, cut into its two halves and put together again. -/
theorem append_offset_halves (off : BitVec 8) : off.extractLsb' 4 4 ++ off.extractLsb' 0 4 = off :=
  (extractLsb'_split off 0 4 4).symm.trans (extractLsb'_all off)

/-- With an immediate offset the bits L and SH choose (R91). -/
theorem decode_halfwordWord_imm (c : Cond) (ix : Indexing) (l : Bool) (sh : BitVec 2) (rn rd : Reg) (off : BitVec 8)
    (hsh : sh ≠ 0b00#2) :
    decode (halfwordWord c ix true l sh rn rd (off.extractLsb' 4 4) (off.extractLsb' 0 4)) =
      if l then
        if sh = 0b01#2 then .instr (.ldrhImm c ix rn rd off)
        else if sh = 0b10#2 then .instr (.ldrsbImm c ix rn rd off)
        else .instr (.ldrshImm c ix rn rd off)
      else if sh = 0b01#2 then .instr (.strhImm c ix rn rd off)
      else .reserved .signedStore := by
  generalize hw : halfwordWord c ix true l sh rn rd (off.extractLsb' 4 4) (off.extractLsb' 0 4) = w
  obtain ⟨hc, hcls, hp, hu, h22, hwb, h20, hrn, hrd, hhi, h7, hshw, h4, hlo⟩ := fields_of_halfwordWord hw.symm
  rw [decode_of_extension hcls h7 h4, decodeExtension, hshw, if_neg hsh, if_pos h22]
  simp only [decodeHalfwordImm, condOf, indexingOf, regAt16, regAt12, hshw, h20, hc, hp, hu, hwb, hrn, hrd, hhi, hlo,
    append_offset_halves, Cond.ofBits_bits]

/-- With a register offset bits 11 to 8 are 0000, and L and SH choose (R91). -/
theorem decode_halfwordWord_reg (c : Cond) (ix : Indexing) (l : Bool) (sh : BitVec 2) (rn rd rm : Reg)
    (hsh : sh ≠ 0b00#2) :
    decode (halfwordWord c ix false l sh rn rd 0b0000#4 rm) =
      if l then
        if sh = 0b01#2 then .instr (.ldrhReg c ix rn rd rm)
        else if sh = 0b10#2 then .instr (.ldrsbReg c ix rn rd rm)
        else .instr (.ldrshReg c ix rn rd rm)
      else if sh = 0b01#2 then .instr (.strhReg c ix rn rd rm)
      else .reserved .signedStore := by
  generalize hw : halfwordWord c ix false l sh rn rd 0b0000#4 rm = w
  obtain ⟨hc, hcls, hp, hu, h22, hwb, h20, hrn, hrd, hhi, h7, hshw, h4, hlo⟩ := fields_of_halfwordWord hw.symm
  rw [decode_of_extension hcls h7 h4, decodeExtension, hshw, if_neg hsh, h22, if_neg Bool.false_ne_true,
    decodeHalfwordReg, if_pos hhi]
  simp only [condOf, indexingOf, regAt16, regAt12, regAt0, hshw, h20, hc, hp, hu, hwb, hrn, hrd, hlo, Cond.ofBits_bits]

theorem decode_transferImmWord (c : Cond) (ix : Indexing) (b l : Bool) (rn rd : Reg) (off : BitVec 12) :
    decode (transferImmWord c ix b l rn rd off) =
      if b then if l then .instr (.ldrbImm c ix rn rd off) else .instr (.strbImm c ix rn rd off)
      else if l then .instr (.ldrImm c ix rn rd off) else .instr (.strImm c ix rn rd off) := by
  generalize hw : transferImmWord c ix b l rn rd off = w
  obtain ⟨hc, hcls, hp, hu, h22, hwb, h20, hrn, hrd, hoff⟩ := fields_of_transferImmWord hw.symm
  rw [decode_of_transferImm hcls]
  simp only [decodeTransferImm, condOf, indexingOf, regAt16, regAt12, h22, h20, hc, hp, hu, hwb, hrn, hrd, hoff,
    Cond.ofBits_bits]
  cases b <;> cases l <;> rfl

theorem decode_transferRegWord (c : Cond) (ix : Indexing) (b l : Bool) (rn rd : Reg) (o : ShiftedReg) :
    decode (transferRegWord c ix b l rn rd o) =
      if b then if l then .instr (.ldrbReg c ix rn rd o) else .instr (.strbReg c ix rn rd o)
      else if l then .instr (.ldrReg c ix rn rd o) else .instr (.strReg c ix rn rd o) := by
  generalize hw : transferRegWord c ix b l rn rd o = w
  obtain ⟨hc, hcls, hp, hu, h22, hwb, h20, hrn, hrd, hamount, hkind, h4, hrm⟩ := fields_of_transferRegWord hw.symm
  rw [decode_of_transferReg hcls h4]
  simp only [decodeTransferReg, condOf, indexingOf, regAt16, regAt12, regAt0, shiftedRegOf, h22, h20, hc, hp, hu, hwb,
    hrn, hrd, hamount, hkind, hrm, Cond.ofBits_bits, ShiftKind.ofBits_bits]
  cases b <;> cases l <;> rfl

theorem decode_blockWord (c : Cond) (ix : Indexing) (b l : Bool) (rn : Reg) (list : BitVec 16) :
    decode (blockWord c ix b l rn list) =
      if b then if l then .instr (.ldmS c ix rn list) else .instr (.stmS c ix rn list)
      else if l then .instr (.ldm c ix rn list) else .instr (.stm c ix rn list) := by
  generalize hw : blockWord c ix b l rn list = w
  obtain ⟨hc, hcls, hp, hu, h22, hwb, h20, hrn, hlist⟩ := fields_of_blockWord hw.symm
  rw [decode_of_block hcls]
  simp only [decodeBlock, condOf, indexingOf, regAt16, h22, h20, hc, hp, hu, hwb, hrn, hlist, Cond.ofBits_bits]
  cases b <;> cases l <;> rfl

theorem decode_branchWord (c : Cond) (l : Bool) (off : BitVec 24) :
    decode (c.bits ++ 0b101#3 ++ BitVec.ofBool l ++ off) = if l then .instr (.bl c off) else .instr (.b c off) := by
  generalize hw : c.bits ++ 0b101#3 ++ BitVec.ofBool l ++ off = w
  obtain ⟨hc, hcls, h24, hoff⟩ := fields_of_branchWord hw.symm
  rw [decode_of_branch hcls]
  simp only [decodeBranch, condOf, h24, hc, hoff, Cond.ofBits_bits]
  cases l <;> rfl

/-! ### The compare space: BX, MRS and the MSR forms

A later test of `decodeStatus` is reached because a word of its form differs from the earlier forms in a fixed bit. -/

/-- A bit of class 000 or 001 that is clear keeps a word out of the space of the multiplies and halfword transfers. -/
theorem not_extension_of_bit {w : Word} (h : w.getLsbD 7 = false ∨ w.getLsbD 4 = false) :
    ¬(classOf w = 0b000#3 ∧ w.getLsbD 7 = true ∧ w.getLsbD 4 = true) := by
  rintro ⟨-, h7, h4⟩
  simp [h7, h4, -BitVec.getLsbD_eq_getElem] at h

/-- Two values of a field differ when a bit of it does. -/
theorem field_ne_of_bit {n start len : Nat} {w : BitVec n} {v : BitVec len} (i : Nat) (hi : i < len)
    (h : w.getLsbD (start + i) = !v.getLsbD i) : w.extractLsb' start len ≠ v := by
  intro hv
  rw [getLsbD_of_field hv i hi] at h
  simp at h

theorem decode_bxWord (c : Cond) (rn : Reg) :
    decode (c.bits ++ 0b000100101111111111110001#24 ++ rn) = .instr (.bx c rn) := by
  generalize hw : c.bits ++ 0b000100101111111111110001#24 ++ rn = w
  obtain ⟨hc, hfixed, hrn⟩ := fields_of_bxWord hw.symm
  have hcls : classOf w = 0b000#3 := extractLsb'_of_field hfixed 21 3 (by decide)
  rw [decode_of_compareSpace (.inl hcls) (not_extension_of_bit (.inl (getLsbD_of_field hfixed 3 (by decide))))
    (extractLsb'_of_field hfixed 19 2 (by decide)) (getLsbD_of_field hfixed 16 (by decide)), decodeStatus,
    if_pos hfixed]
  simp only [condOf, regAt0, hc, hrn, Cond.ofBits_bits]

theorem decode_mrsWord (c : Cond) (ps : Bool) (rd : Reg) :
    decode (c.bits ++ 0b00010#5 ++ BitVec.ofBool ps ++ 0b001111#6 ++ rd ++ 0#12) = .instr (.mrs c ps rd) := by
  generalize hw : c.bits ++ 0b00010#5 ++ BitVec.ofBool ps ++ 0b001111#6 ++ rd ++ 0#12 = w
  obtain ⟨hc, h23, h22, h16, hrd, h0⟩ := fields_of_mrsWord hw.symm
  have hcls : classOf w = 0b000#3 := extractLsb'_of_field h23 2 3 (by decide)
  have h4 : w.getLsbD 4 = false := getLsbD_of_field h0 4 (by decide)
  rw [decode_of_compareSpace (.inl hcls) (not_extension_of_bit (.inr h4))
    (extractLsb'_of_field h23 0 2 (by decide)) (getLsbD_of_field h16 4 (by decide)), decodeStatus,
    if_neg (field_ne_of_bit 0 (by decide) h4), if_pos ⟨h23, h16, h0⟩]
  simp only [condOf, regAt12, hc, h22, hrd, Cond.ofBits_bits]

/-- The mask 1001 of the whole PSR or 1000 of the flags chooses the form (R97). -/
theorem decode_msrRegWord (c : Cond) (pd : Bool) (b : Bool) (rm : Reg) :
    decode (msrRegWord c pd (0b100#3 ++ BitVec.ofBool b) rm) =
      if b then .instr (.msrReg c pd rm) else .instr (.msrRegFlags c pd rm) := by
  generalize hw : msrRegWord c pd (0b100#3 ++ BitVec.ofBool b) rm = w
  obtain ⟨hc, h23, h22, h20, h16, h12, h4, hrm⟩ := fields_of_msrRegWord hw.symm
  have hcls : classOf w = 0b000#3 := extractLsb'_of_field h23 2 3 (by decide)
  have hbit4 : w.getLsbD 4 = false := getLsbD_of_field h4 0 (by decide)
  have hbit21 : w.getLsbD 21 = true := getLsbD_of_field h20 1 (by decide)
  have hmask : w.extractLsb' 4 18 = 0b10#2 ++ (0b100#3 ++ BitVec.ofBool b) ++ 0b1111#4 ++ 0b00000000#8 := by
    rw [← h20, ← h16, ← h12, ← h4]
    simp (disch := decide) only [BitVec.extractLsb'_append_extractLsb'_eq_extractLsb']
  have hnotMrs : ¬(w.extractLsb' 23 5 = 0b00010#5 ∧ w.extractLsb' 16 6 = 0b001111#6 ∧ w.extractLsb' 0 12 = 0#12) :=
    fun h => field_ne_of_bit 5 (by decide) hbit21 h.2.1
  rw [decode_of_compareSpace (.inl hcls) (not_extension_of_bit (.inr hbit4))
    (extractLsb'_of_field h23 0 2 (by decide)) (getLsbD_of_field h20 0 (by decide)), decodeStatus,
    if_neg (field_ne_of_bit 0 (by decide) hbit4), if_neg hnotMrs, hmask]
  simp only [condOf, regAt0, hc, h22, h23, hrm, Cond.ofBits_bits]
  cases b <;> rfl

theorem decode_msrImmWord (c : Cond) (pd : Bool) (o : RotImm) :
    decode (c.bits ++ 0b00110#5 ++ BitVec.ofBool pd ++ 0b1010001111#10 ++ o.rot ++ o.imm) =
      .instr (.msrImmFlags c pd o) := by
  generalize hw : c.bits ++ 0b00110#5 ++ BitVec.ofBool pd ++ 0b1010001111#10 ++ o.rot ++ o.imm = w
  obtain ⟨hc, h23, h22, h12, hrot, himm⟩ := fields_of_msrImmWord hw.symm
  have hcls : classOf w = 0b001#3 := extractLsb'_of_field h23 2 3 (by decide)
  have hbit25 : w.getLsbD 25 = true := getLsbD_of_field h23 2 (by decide)
  have hnotReg : w.extractLsb' 23 5 ≠ 0b00010#5 := field_ne_of_bit 2 (by decide) hbit25
  have hnotExt : ¬(classOf w = 0b000#3 ∧ w.getLsbD 7 = true ∧ w.getLsbD 4 = true) := by
    rw [hcls]; exact fun h => absurd h.1 (by decide)
  rw [decode_of_compareSpace (.inr hcls) hnotExt (extractLsb'_of_field h23 0 2 (by decide))
    (getLsbD_of_field h12 8 (by decide)), decodeStatus, if_neg (field_ne_of_bit 21 (by decide) hbit25),
    if_neg (fun h => hnotReg h.1), if_neg (fun h => hnotReg h.1), if_neg (fun h => hnotReg h.1), if_pos ⟨h23, h12⟩]
  simp only [condOf, rotImmOf, hc, h22, hrot, himm, Cond.ofBits_bits]

/-- Settles O1, format by format: an operation that is no compare keeps its S, a compare is encoded with S = 1. -/
theorem decodeOfEncode : Obligations.DecodeOfEncode := by
  unfold Obligations.DecodeOfEncode
  intro i
  cases i with
  | andImm c s rn rd o | eorImm c s rn rd o | subImm c s rn rd o | rsbImm c s rn rd o | addImm c s rn rd o
  | adcImm c s rn rd o | sbcImm c s rn rd o | rscImm c s rn rd o | orrImm c s rn rd o | movImm c s rn rd o
  | bicImm c s rn rd o | mvnImm c s rn rd o =>
    exact decode_dpImmWord _ c s rn rd o fun h => absurd h (by decide)
  | tstImm c rn rd o | teqImm c rn rd o | cmpImm c rn rd o | cmnImm c rn rd o =>
    exact decode_dpImmWord _ c true rn rd o fun _ => rfl
  | andReg3 c s rn rd o | eorReg3 c s rn rd o | subReg3 c s rn rd o | rsbReg3 c s rn rd o | addReg3 c s rn rd o
  | adcReg3 c s rn rd o | sbcReg3 c s rn rd o | rscReg3 c s rn rd o | orrReg3 c s rn rd o | movReg3 c s rn rd o
  | bicReg3 c s rn rd o | mvnReg3 c s rn rd o =>
    exact decode_dpReg3Word _ c s rn rd o fun h => absurd h (by decide)
  | tstReg3 c rn rd o | teqReg3 c rn rd o | cmpReg3 c rn rd o | cmnReg3 c rn rd o =>
    exact decode_dpReg3Word _ c true rn rd o fun _ => rfl
  | andReg4 c s rn rd o | eorReg4 c s rn rd o | subReg4 c s rn rd o | rsbReg4 c s rn rd o | addReg4 c s rn rd o
  | adcReg4 c s rn rd o | sbcReg4 c s rn rd o | rscReg4 c s rn rd o | orrReg4 c s rn rd o | movReg4 c s rn rd o
  | bicReg4 c s rn rd o | mvnReg4 c s rn rd o =>
    exact decode_dpReg4Word _ c s rn rd o fun h => absurd h (by decide)
  | tstReg4 c rn rd o | teqReg4 c rn rd o | cmpReg4 c rn rd o | cmnReg4 c rn rd o =>
    exact decode_dpReg4Word _ c true rn rd o fun _ => rfl
  | mul c s r16 r12 rs rm | mla c s r16 r12 rs rm | umull c s r16 r12 rs rm | umlal c s r16 r12 rs rm
  | smull c s r16 r12 rs rm | smlal c s r16 r12 rs rm => exact decode_multiplyWord c _ s r16 r12 rs rm
  | swp c rn rd rm | swpb c rn rd rm => exact decode_swapWord c _ rn rd rm
  | ldrhReg c ix rn rd rm | strhReg c ix rn rd rm | ldrsbReg c ix rn rd rm | ldrshReg c ix rn rd rm =>
    exact decode_halfwordWord_reg c ix _ _ rn rd rm (by decide)
  | ldrhImm c ix rn rd off | strhImm c ix rn rd off | ldrsbImm c ix rn rd off | ldrshImm c ix rn rd off =>
    exact decode_halfwordWord_imm c ix _ _ rn rd off (by decide)
  | bx c rn => exact decode_bxWord c rn
  | mrs c ps rd => exact decode_mrsWord c ps rd
  | msrReg c pd rm => exact decode_msrRegWord c pd true rm
  | msrRegFlags c pd rm => exact decode_msrRegWord c pd false rm
  | msrImmFlags c pd o => exact decode_msrImmWord c pd o
  | ldrImm c ix rn rd off | strImm c ix rn rd off | ldrbImm c ix rn rd off | strbImm c ix rn rd off =>
    exact decode_transferImmWord c ix _ _ rn rd off
  | ldrReg c ix rn rd o | strReg c ix rn rd o | ldrbReg c ix rn rd o | strbReg c ix rn rd o =>
    exact decode_transferRegWord c ix _ _ rn rd o
  | ldm c ix rn list | stm c ix rn list | ldmS c ix rn list | stmS c ix rn list =>
    exact decode_blockWord c ix _ _ rn list
  | b c off => exact decode_branchWord c false off
  | bl c off => exact decode_branchWord c true off

end Sys2Proof
end

section
/-! Proofs of the family 30_encoding.md, third part: the row of the opcode table of every instruction (R80), the reserved
words (R100 to R104) and the words the source prints. -/

namespace Sys2Proof

open Claims

/-! ### The words of the formats under the masks of their rows

A mask is written part by part beside the word: each part is kept or cleared whole. -/

theorem dpImmWord_and (c : Cond) (op : DpOp) (s : Bool) (rn rd : Reg) (o : RotImm) :
    dpImmWord c op s rn rd o &&&
        (0#4 ++ BitVec.allOnes 3 ++ BitVec.allOnes 4 ++ 0#1 ++ 0#4 ++ 0#4 ++
          0#4 ++ 0#8) =
      0#4 ++ 0b001#3 ++ op.bits ++ 0#1 ++ 0#4 ++ 0#4 ++ 0#4 ++ 0#8 := by
  rw [dpImmWord, BitVec.and_append]
  simp only [BitVec.and_append, BitVec.and_zero, BitVec.and_allOnes]

theorem dpImmWord_and_withS (c : Cond) (op : DpOp) (s : Bool) (rn rd : Reg) (o : RotImm) :
    dpImmWord c op s rn rd o &&&
        (0#4 ++ BitVec.allOnes 3 ++ BitVec.allOnes 4 ++ BitVec.allOnes 1 ++ 0#4 ++
          0#4 ++ 0#4 ++ 0#8) =
      0#4 ++ 0b001#3 ++ op.bits ++ BitVec.ofBool s ++ 0#4 ++ 0#4 ++ 0#4 ++ 0#8 := by
  rw [dpImmWord, BitVec.and_append]
  simp only [BitVec.and_append, BitVec.and_zero, BitVec.and_allOnes]

theorem dpReg3Word_and (c : Cond) (op : DpOp) (s : Bool) (rn rd : Reg) (o : ShiftedReg) :
    dpReg3Word c op s rn rd o &&&
        (0#4 ++ BitVec.allOnes 3 ++ BitVec.allOnes 4 ++ 0#1 ++ 0#4 ++ 0#4 ++
          0#5 ++ 0#2 ++ BitVec.allOnes 1 ++ 0#4) =
      0#4 ++ 0b000#3 ++ op.bits ++ 0#1 ++ 0#4 ++ 0#4 ++ 0#5 ++ 0#2 ++ 0b0#1 ++ 0#4 := by
  rw [dpReg3Word, BitVec.and_append]
  simp only [BitVec.and_append, BitVec.and_zero, BitVec.and_allOnes]

theorem dpReg3Word_and_withS (c : Cond) (op : DpOp) (s : Bool) (rn rd : Reg) (o : ShiftedReg) :
    dpReg3Word c op s rn rd o &&&
        (0#4 ++ BitVec.allOnes 3 ++ BitVec.allOnes 4 ++ BitVec.allOnes 1 ++
          0#4 ++ 0#4 ++ 0#5 ++ 0#2 ++ BitVec.allOnes 1 ++ 0#4) =
      0#4 ++ 0b000#3 ++ op.bits ++ BitVec.ofBool s ++ 0#4 ++ 0#4 ++ 0#5 ++ 0#2 ++ 0b0#1 ++ 0#4 := by
  rw [dpReg3Word, BitVec.and_append]
  simp only [BitVec.and_append, BitVec.and_zero, BitVec.and_allOnes]

theorem dpReg4Word_and (c : Cond) (op : DpOp) (s : Bool) (rn rd : Reg) (o : RegShiftedReg) :
    dpReg4Word c op s rn rd o &&&
        (0#4 ++ BitVec.allOnes 3 ++ BitVec.allOnes 4 ++ 0#1 ++ 0#4 ++ 0#4 ++
          0#4 ++ BitVec.allOnes 1 ++ 0#2 ++ BitVec.allOnes 1 ++ 0#4) =
      0#4 ++ 0b000#3 ++ op.bits ++ 0#1 ++ 0#4 ++ 0#4 ++ 0#4 ++ 0b0#1 ++ 0#2 ++ 0b1#1 ++ 0#4 := by
  rw [dpReg4Word, BitVec.and_append]
  simp only [BitVec.and_append, BitVec.and_zero, BitVec.and_allOnes]

theorem dpReg4Word_and_withS (c : Cond) (op : DpOp) (s : Bool) (rn rd : Reg) (o : RegShiftedReg) :
    dpReg4Word c op s rn rd o &&&
        (0#4 ++ BitVec.allOnes 3 ++ BitVec.allOnes 4 ++ BitVec.allOnes 1 ++
          0#4 ++ 0#4 ++ 0#4 ++ BitVec.allOnes 1 ++ 0#2 ++ BitVec.allOnes 1 ++ 0#4) =
      0#4 ++ 0b000#3 ++ op.bits ++ BitVec.ofBool s ++ 0#4 ++ 0#4 ++ 0#4 ++ 0b0#1 ++ 0#2 ++ 0b1#1 ++ 0#4 := by
  rw [dpReg4Word, BitVec.and_append]
  simp only [BitVec.and_append, BitVec.and_zero, BitVec.and_allOnes]

theorem multiplyWord_and (c : Cond) (lua : BitVec 3) (s : Bool) (r16 r12 rs rm : Reg) :
    multiplyWord c lua s r16 r12 rs rm &&&
        (0#4 ++ BitVec.allOnes 4 ++ BitVec.allOnes 3 ++ 0#1 ++ 0#4 ++
          0#4 ++ 0#4 ++ BitVec.allOnes 4 ++ 0#4) =
      0#4 ++ 0b0000#4 ++ lua ++ 0#1 ++ 0#4 ++ 0#4 ++ 0#4 ++ 0b1001#4 ++ 0#4 := by
  rw [multiplyWord, BitVec.and_append]
  simp only [BitVec.and_append, BitVec.and_zero, BitVec.and_allOnes]

theorem swapWord_and (c : Cond) (b : Bool) (rn rd rm : Reg) :
    swapWord c b rn rd rm &&&
        (0#4 ++ BitVec.allOnes 5 ++ BitVec.allOnes 1 ++ BitVec.allOnes 2 ++ 0#4 ++
          0#4 ++ BitVec.allOnes 4 ++ BitVec.allOnes 4 ++ 0#4) =
      0#4 ++ 0b00010#5 ++ BitVec.ofBool b ++ 0b00#2 ++ 0#4 ++ 0#4 ++ 0b0000#4 ++ 0b1001#4 ++ 0#4 := by
  rw [swapWord, BitVec.and_append]
  simp only [BitVec.and_append, BitVec.and_zero, BitVec.and_allOnes]

theorem halfwordWord_and_imm (c : Cond) (ix : Indexing) (imm l : Bool) (sh : BitVec 2) (rn rd : Reg) (hi lo : BitVec 4) :
    halfwordWord c ix imm l sh rn rd hi lo &&&
        (0#4 ++ BitVec.allOnes 3 ++ 0#1 ++ 0#1 ++
          BitVec.allOnes 1 ++ 0#1 ++ BitVec.allOnes 1 ++ 0#4 ++ 0#4 ++ 0#4 ++ BitVec.allOnes 1 ++
          BitVec.allOnes 2 ++ BitVec.allOnes 1 ++ 0#4) =
      0#4 ++ 0b000#3 ++ 0#1 ++ 0#1 ++ BitVec.ofBool imm ++ 0#1 ++ BitVec.ofBool l ++ 0#4 ++ 0#4 ++ 0#4 ++ 0b1#1 ++
        sh ++ 0b1#1 ++ 0#4 := by
  rw [halfwordWord, BitVec.and_append]
  simp only [BitVec.and_append, BitVec.and_zero, BitVec.and_allOnes]

theorem halfwordWord_and_reg (c : Cond) (ix : Indexing) (imm l : Bool) (sh : BitVec 2) (rn rd : Reg) (hi lo : BitVec 4) :
    halfwordWord c ix imm l sh rn rd hi lo &&&
        (0#4 ++ BitVec.allOnes 3 ++ 0#1 ++ 0#1 ++
          BitVec.allOnes 1 ++ 0#1 ++ BitVec.allOnes 1 ++ 0#4 ++ 0#4 ++ BitVec.allOnes 4 ++ BitVec.allOnes 1 ++
          BitVec.allOnes 2 ++ BitVec.allOnes 1 ++ 0#4) =
      0#4 ++ 0b000#3 ++ 0#1 ++ 0#1 ++ BitVec.ofBool imm ++ 0#1 ++ BitVec.ofBool l ++ 0#4 ++ 0#4 ++ hi ++ 0b1#1 ++
        sh ++ 0b1#1 ++ 0#4 := by
  rw [halfwordWord, BitVec.and_append]
  simp only [BitVec.and_append, BitVec.and_zero, BitVec.and_allOnes]

theorem transferImmWord_and (c : Cond) (ix : Indexing) (b l : Bool) (rn rd : Reg) (off : BitVec 12) :
    transferImmWord c ix b l rn rd off &&&
        (0#4 ++ BitVec.allOnes 3 ++ 0#1 ++ 0#1 ++ BitVec.allOnes 1 ++
          0#1 ++ BitVec.allOnes 1 ++ 0#4 ++ 0#4 ++ 0#12) =
      0#4 ++ 0b010#3 ++ 0#1 ++ 0#1 ++ BitVec.ofBool b ++ 0#1 ++ BitVec.ofBool l ++ 0#4 ++ 0#4 ++ 0#12 := by
  rw [transferImmWord, BitVec.and_append]
  simp only [BitVec.and_append, BitVec.and_zero, BitVec.and_allOnes]

theorem transferRegWord_and (c : Cond) (ix : Indexing) (b l : Bool) (rn rd : Reg) (o : ShiftedReg) :
    transferRegWord c ix b l rn rd o &&&
        (0#4 ++ BitVec.allOnes 3 ++ 0#1 ++ 0#1 ++ BitVec.allOnes 1 ++
          0#1 ++ BitVec.allOnes 1 ++ 0#4 ++ 0#4 ++ 0#5 ++ 0#2 ++ BitVec.allOnes 1 ++ 0#4) =
      0#4 ++ 0b011#3 ++ 0#1 ++ 0#1 ++ BitVec.ofBool b ++ 0#1 ++ BitVec.ofBool l ++ 0#4 ++ 0#4 ++ 0#5 ++ 0#2 ++
        0b0#1 ++ 0#4 := by
  rw [transferRegWord, BitVec.and_append]
  simp only [BitVec.and_append, BitVec.and_zero, BitVec.and_allOnes]

theorem blockWord_and (c : Cond) (ix : Indexing) (b l : Bool) (rn : Reg) (list : BitVec 16) :
    blockWord c ix b l rn list &&&
        (0#4 ++ BitVec.allOnes 3 ++ 0#1 ++ 0#1 ++ BitVec.allOnes 1 ++ 0#1 ++
          BitVec.allOnes 1 ++ 0#4 ++ 0#16) =
      0#4 ++ 0b100#3 ++ 0#1 ++ 0#1 ++ BitVec.ofBool b ++ 0#1 ++ BitVec.ofBool l ++ 0#4 ++ 0#16 := by
  rw [blockWord, BitVec.and_append]
  simp only [BitVec.and_append, BitVec.and_zero, BitVec.and_allOnes]

theorem branchWord_and (c : Cond) (l : BitVec 1) (off : BitVec 24) :
    (c.bits ++ 0b101#3 ++ l ++ off) &&&
        (0#4 ++ BitVec.allOnes 3 ++ BitVec.allOnes 1 ++ 0#24) =
      0#4 ++ 0b101#3 ++ l ++ 0#24 := by
  rw [BitVec.and_append]
  simp only [BitVec.and_append, BitVec.and_zero, BitVec.and_allOnes]

theorem bxWord_and (c : Cond) (rn : Reg) :
    (c.bits ++ 0b000100101111111111110001#24 ++ rn) &&&
        (0#4 ++ BitVec.allOnes 24 ++ 0#4) =
      0#4 ++ 0b000100101111111111110001#24 ++ 0#4 := by
  rw [BitVec.and_append]
  simp only [BitVec.and_append, BitVec.and_zero, BitVec.and_allOnes]

theorem mrsWord_and (c : Cond) (ps : Bool) (rd : Reg) :
    (c.bits ++ 0b00010#5 ++ BitVec.ofBool ps ++ 0b001111#6 ++ rd ++ 0#12) &&&
        (0#4 ++ BitVec.allOnes 5 ++
          0#1 ++ BitVec.allOnes 6 ++ 0#4 ++ BitVec.allOnes 12) =
      0#4 ++ 0b00010#5 ++ 0#1 ++ 0b001111#6 ++ 0#4 ++ 0#12 := by
  rw [BitVec.and_append]
  simp only [BitVec.and_append, BitVec.and_zero, BitVec.and_allOnes]

theorem msrRegWord_and (c : Cond) (pd : Bool) (mask : BitVec 4) (rm : Reg) :
    msrRegWord c pd mask rm &&&
        (0#4 ++ BitVec.allOnes 5 ++ 0#1 ++ BitVec.allOnes 2 ++ BitVec.allOnes 4 ++
          BitVec.allOnes 4 ++ BitVec.allOnes 8 ++ 0#4) =
      0#4 ++ 0b00010#5 ++ 0#1 ++ 0b10#2 ++ mask ++ 0b1111#4 ++ 0b00000000#8 ++ 0#4 := by
  rw [msrRegWord, BitVec.and_append]
  simp only [BitVec.and_append, BitVec.and_zero, BitVec.and_allOnes]

theorem msrImmWord_and (c : Cond) (pd : Bool) (o : RotImm) :
    (c.bits ++ 0b00110#5 ++ BitVec.ofBool pd ++ 0b1010001111#10 ++ o.rot ++ o.imm) &&&
        (0#4 ++
          BitVec.allOnes 5 ++ 0#1 ++ BitVec.allOnes 10 ++ 0#4 ++ 0#8) =
      0#4 ++ 0b00110#5 ++ 0#1 ++ 0b1010001111#10 ++ 0#4 ++ 0#8 := by
  rw [BitVec.and_append]
  simp only [BitVec.and_append, BitVec.and_zero, BitVec.and_allOnes]

/-- Settles O3, format by format: the kept parts are fixed bits or the values the instruction fixes. -/
theorem encodedWordMatchesTableRow : Obligations.EncodedWordMatchesTableRow := by
  unfold Obligations.EncodedWordMatchesTableRow
  intro i
  cases i with
  | andImm c s rn rd o | eorImm c s rn rd o | subImm c s rn rd o | rsbImm c s rn rd o | addImm c s rn rd o
  | adcImm c s rn rd o | sbcImm c s rn rd o | rscImm c s rn rd o | orrImm c s rn rd o | movImm c s rn rd o
  | bicImm c s rn rd o | mvnImm c s rn rd o => exact dpImmWord_and c _ s rn rd o
  | tstImm c rn rd o | teqImm c rn rd o | cmpImm c rn rd o | cmnImm c rn rd o =>
    exact dpImmWord_and_withS c _ true rn rd o
  | andReg3 c s rn rd o | eorReg3 c s rn rd o | subReg3 c s rn rd o | rsbReg3 c s rn rd o | addReg3 c s rn rd o
  | adcReg3 c s rn rd o | sbcReg3 c s rn rd o | rscReg3 c s rn rd o | orrReg3 c s rn rd o | movReg3 c s rn rd o
  | bicReg3 c s rn rd o | mvnReg3 c s rn rd o => exact dpReg3Word_and c _ s rn rd o
  | tstReg3 c rn rd o | teqReg3 c rn rd o | cmpReg3 c rn rd o | cmnReg3 c rn rd o =>
    exact dpReg3Word_and_withS c _ true rn rd o
  | andReg4 c s rn rd o | eorReg4 c s rn rd o | subReg4 c s rn rd o | rsbReg4 c s rn rd o | addReg4 c s rn rd o
  | adcReg4 c s rn rd o | sbcReg4 c s rn rd o | rscReg4 c s rn rd o | orrReg4 c s rn rd o | movReg4 c s rn rd o
  | bicReg4 c s rn rd o | mvnReg4 c s rn rd o => exact dpReg4Word_and c _ s rn rd o
  | tstReg4 c rn rd o | teqReg4 c rn rd o | cmpReg4 c rn rd o | cmnReg4 c rn rd o =>
    exact dpReg4Word_and_withS c _ true rn rd o
  | mul c s r16 r12 rs rm | mla c s r16 r12 rs rm | umull c s r16 r12 rs rm | umlal c s r16 r12 rs rm
  | smull c s r16 r12 rs rm | smlal c s r16 r12 rs rm => exact multiplyWord_and c _ s r16 r12 rs rm
  | swp c rn rd rm | swpb c rn rd rm => exact swapWord_and c _ rn rd rm
  | ldrhReg c ix rn rd rm | strhReg c ix rn rd rm | ldrsbReg c ix rn rd rm | ldrshReg c ix rn rd rm =>
    exact halfwordWord_and_reg c ix _ _ _ rn rd _ rm
  | ldrhImm c ix rn rd off | strhImm c ix rn rd off | ldrsbImm c ix rn rd off | ldrshImm c ix rn rd off =>
    exact halfwordWord_and_imm c ix _ _ _ rn rd _ _
  | bx c rn => exact bxWord_and c rn
  | mrs c ps rd => exact mrsWord_and c ps rd
  | msrReg c pd rm | msrRegFlags c pd rm => exact msrRegWord_and c pd _ rm
  | msrImmFlags c pd o => exact msrImmWord_and c pd o
  | ldrImm c ix rn rd off | strImm c ix rn rd off | ldrbImm c ix rn rd off | strbImm c ix rn rd off =>
    exact transferImmWord_and c ix _ _ rn rd off
  | ldrReg c ix rn rd o | strReg c ix rn rd o | ldrbReg c ix rn rd o | strbReg c ix rn rd o =>
    exact transferRegWord_and c ix _ _ rn rd o
  | ldm c ix rn list | stm c ix rn list | ldmS c ix rn list | stmS c ix rn list => exact blockWord_and c ix _ _ rn list
  | b c off | bl c off => exact branchWord_and c _ off

/-! ### The reserved words, part by part of the decoder -/

/-- The masks of R95, R96 and R97 compare the fields that `decodeStatus` compares. -/
theorem and_bxMask_iff (w : Word) :
    w &&& 0x0FFFFFF0#32 = 0x012FFF10#32 ↔ w.extractLsb' 4 24 = 0b000100101111111111110001#24 := by
  have hw : w.extractLsb' 28 4 ++ w.extractLsb' 4 24 ++ w.extractLsb' 0 4 = w := by
    simp (disch := decide) only [BitVec.extractLsb'_append_extractLsb'_eq_extractLsb']
    exact extractLsb'_all w
  calc w &&& 0x0FFFFFF0#32 = 0x012FFF10#32
      ↔ (w.extractLsb' 28 4 ++ w.extractLsb' 4 24 ++ w.extractLsb' 0 4) &&& (0#4 ++ BitVec.allOnes 24 ++ 0#4) =
          0#4 ++ 0b000100101111111111110001#24 ++ 0#4 := by rw [hw]; rfl
    _ ↔ _ := by
      simp only [BitVec.and_append, BitVec.and_zero, BitVec.and_allOnes, append_eq_append_iff, true_and, and_true]

theorem and_mrsMask_iff (w : Word) :
    w &&& 0x0FBF0FFF#32 = 0x010F0000#32 ↔
      w.extractLsb' 23 5 = 0b00010#5 ∧ w.extractLsb' 16 6 = 0b001111#6 ∧ w.extractLsb' 0 12 = 0#12 := by
  have hw : w.extractLsb' 28 4 ++ w.extractLsb' 23 5 ++ w.extractLsb' 22 1 ++ w.extractLsb' 16 6 ++
      w.extractLsb' 12 4 ++ w.extractLsb' 0 12 = w := by
    simp (disch := decide) only [BitVec.extractLsb'_append_extractLsb'_eq_extractLsb']
    exact extractLsb'_all w
  calc w &&& 0x0FBF0FFF#32 = 0x010F0000#32
      ↔ (w.extractLsb' 28 4 ++ w.extractLsb' 23 5 ++ w.extractLsb' 22 1 ++ w.extractLsb' 16 6 ++
          w.extractLsb' 12 4 ++ w.extractLsb' 0 12) &&&
            (0#4 ++ BitVec.allOnes 5 ++ 0#1 ++ BitVec.allOnes 6 ++ 0#4 ++ BitVec.allOnes 12) =
          0#4 ++ 0b00010#5 ++ 0#1 ++ 0b001111#6 ++ 0#4 ++ 0#12 := by rw [hw]; rfl
    _ ↔ _ := by
      simp only [BitVec.and_append, BitVec.and_zero, BitVec.and_allOnes, append_eq_append_iff, true_and, and_true,
        and_assoc]

/-- One mask serves the two MSR forms that read a register; `v` is what it leaves of bits 21 to 4. -/
theorem and_msrRegMask_iff (w : Word) (v : BitVec 18) :
    w &&& 0x0FBFFFF0#32 = 0#4 ++ 0b00010#5 ++ 0#1 ++ v ++ 0#4 ↔
      w.extractLsb' 23 5 = 0b00010#5 ∧ w.extractLsb' 4 18 = v := by
  have hw : w.extractLsb' 28 4 ++ w.extractLsb' 23 5 ++ w.extractLsb' 22 1 ++ w.extractLsb' 4 18 ++
      w.extractLsb' 0 4 = w := by
    simp (disch := decide) only [BitVec.extractLsb'_append_extractLsb'_eq_extractLsb']
    exact extractLsb'_all w
  calc w &&& 0x0FBFFFF0#32 = 0#4 ++ 0b00010#5 ++ 0#1 ++ v ++ 0#4
      ↔ (w.extractLsb' 28 4 ++ w.extractLsb' 23 5 ++ w.extractLsb' 22 1 ++ w.extractLsb' 4 18 ++ w.extractLsb' 0 4) &&&
            (0#4 ++ BitVec.allOnes 5 ++ 0#1 ++ BitVec.allOnes 18 ++ 0#4) =
          0#4 ++ 0b00010#5 ++ 0#1 ++ v ++ 0#4 := by rw [hw]; rfl
    _ ↔ _ := by
      simp only [BitVec.and_append, BitVec.and_zero, BitVec.and_allOnes, append_eq_append_iff, true_and, and_true]

theorem and_msrImmMask_iff (w : Word) :
    w &&& 0x0FBFF000#32 = 0x0328F000#32 ↔
      w.extractLsb' 23 5 = 0b00110#5 ∧ w.extractLsb' 12 10 = 0b1010001111#10 := by
  have hw : w.extractLsb' 28 4 ++ w.extractLsb' 23 5 ++ w.extractLsb' 22 1 ++ w.extractLsb' 12 10 ++
      w.extractLsb' 0 12 = w := by
    simp (disch := decide) only [BitVec.extractLsb'_append_extractLsb'_eq_extractLsb']
    exact extractLsb'_all w
  calc w &&& 0x0FBFF000#32 = 0x0328F000#32
      ↔ (w.extractLsb' 28 4 ++ w.extractLsb' 23 5 ++ w.extractLsb' 22 1 ++ w.extractLsb' 12 10 ++
          w.extractLsb' 0 12) &&& (0#4 ++ BitVec.allOnes 5 ++ 0#1 ++ BitVec.allOnes 10 ++ 0#12) =
          0#4 ++ 0b00110#5 ++ 0#1 ++ 0b1010001111#10 ++ 0#12 := by rw [hw]; rfl
    _ ↔ _ := by
      simp only [BitVec.and_append, BitVec.and_zero, BitVec.and_allOnes, append_eq_append_iff, true_and, and_true]

/-- The decoder rejects the word or part of a word it was given. -/
def Decoded.isReserved : Decoded → Bool
  | .instr _ => false
  | .reserved _ => true

theorem Decoded.isReserved_iff (d : Decoded) : d.isReserved = true ↔ ∃ why, d = .reserved why := by
  cases d <;> simp [Decoded.isReserved]

/-- R101: the compare space with S = 0 leaves BX, MRS and the three MSR forms. -/
theorem decodeStatus_isReserved_iff (w : Word) :
    (decodeStatus w).isReserved = true ↔
      w &&& 0x0FFFFFF0#32 ≠ 0x012FFF10#32 ∧ w &&& 0x0FBF0FFF#32 ≠ 0x010F0000#32 ∧
        w &&& 0x0FBFFFF0#32 ≠ 0x0129F000#32 ∧ w &&& 0x0FBFFFF0#32 ≠ 0x0128F000#32 ∧
        w &&& 0x0FBFF000#32 ≠ 0x0328F000#32 := by
  have hreg := and_msrRegMask_iff w 0b101001111100000000#18
  have hflags := and_msrRegMask_iff w 0b101000111100000000#18
  rw [ne_eq, ne_eq, ne_eq, ne_eq, ne_eq, and_bxMask_iff, and_mrsMask_iff, and_msrImmMask_iff,
    show 0x0129F000#32 = 0#4 ++ 0b00010#5 ++ 0#1 ++ 0b101001111100000000#18 ++ 0#4 from rfl, hreg,
    show 0x0128F000#32 = 0#4 ++ 0b00010#5 ++ 0#1 ++ 0b101000111100000000#18 ++ 0#4 from rfl, hflags]
  unfold decodeStatus
  split
  · next h => simp [Decoded.isReserved, h]
  next hbx =>
  split
  · next h => simp [Decoded.isReserved, h]
  next hmrs =>
  split
  · next h => simp [Decoded.isReserved, h]
  next hmsr =>
  split
  · next h => simp [Decoded.isReserved, h]
  next hmsrf =>
  split
  · next h => simp [Decoded.isReserved, h]
  · next hmsri => simp only [Decoded.isReserved, true_iff]; exact ⟨hbx, hmrs, hmsr, hmsrf, hmsri⟩

/-- R100 (a): of the multiplies, the short ones with U = 1. -/
theorem decodeMultiply_isReserved_iff (w : Word) :
    (decodeMultiply w).isReserved = true ↔ w.getLsbD 23 = false ∧ w.getLsbD 22 = true := by
  unfold decodeMultiply
  cases w.getLsbD 23 <;> cases w.getLsbD 22 <;> cases w.getLsbD 21 <;> simp [Decoded.isReserved]

/-- R100 (b): with bit 24 = 1, what is not the SWP pattern. -/
theorem decodeSwap_isReserved_iff (w : Word) :
    (decodeSwap w).isReserved = true ↔
      w.getLsbD 23 = true ∨ w.getLsbD 21 = true ∨ w.getLsbD 20 = true ∨ w.extractLsb' 8 4 ≠ 0#4 := by
  have h20 : w.extractLsb' 20 2 = 0b00#2 ↔ w.getLsbD 21 = false ∧ w.getLsbD 20 = false := by
    rw [extractLsb'_split w 20 1 1, ← ofBool_getLsbD, ← ofBool_getLsbD]
    cases w.getLsbD 21 <;> cases w.getLsbD 20 <;> decide
  unfold decodeSwap
  split
  · next h =>
    obtain ⟨h23, hlow, h8⟩ := h
    obtain ⟨h21, hbit20⟩ := h20.1 hlow
    cases w.getLsbD 22 <;> simp [h23, h21, hbit20, h8, Decoded.isReserved, -BitVec.getLsbD_eq_getElem]
  · next h =>
    simp only [Decoded.isReserved, true_iff]
    rw [h20] at h
    cases h23 : w.getLsbD 23 <;> cases h21 : w.getLsbD 21 <;> cases hbit20 : w.getLsbD 20 <;>
      simp_all [-BitVec.getLsbD_eq_getElem]

/-- R100 (c): with an immediate offset, a signed transfer with L = 0. -/
theorem decodeHalfwordImm_isReserved_iff {w : Word} (hsh : w.extractLsb' 5 2 ≠ 0b00#2) :
    (decodeHalfwordImm w).isReserved = true ↔
      (w.extractLsb' 5 2 = 0b10#2 ∨ w.extractLsb' 5 2 = 0b11#2) ∧ w.getLsbD 20 = false := by
  unfold decodeHalfwordImm
  obtain h | h | h := eq_of_ne_zero_two _ hsh <;> rw [h] <;> cases w.getLsbD 20 <;> simp [Decoded.isReserved]

/-- R100 (c), (d): with a register offset bits 11 to 8 are fixed as well. -/
theorem decodeHalfwordReg_isReserved_iff {w : Word} (hsh : w.extractLsb' 5 2 ≠ 0b00#2) :
    (decodeHalfwordReg w).isReserved = true ↔
      (w.extractLsb' 5 2 = 0b10#2 ∨ w.extractLsb' 5 2 = 0b11#2) ∧ w.getLsbD 20 = false ∨ w.extractLsb' 8 4 ≠ 0#4 := by
  unfold decodeHalfwordReg
  by_cases h8 : w.extractLsb' 8 4 = 0#4
  · obtain h | h | h := eq_of_ne_zero_two _ hsh <;> rw [h, if_pos h8] <;> cases w.getLsbD 20 <;>
      simp [Decoded.isReserved, h8]
  · simp [h8, Decoded.isReserved]

/-- R100: the unassigned part of the space with bits 7 and 4 set. -/
theorem decodeExtension_isReserved_iff (w : Word) :
    (decodeExtension w).isReserved = true ↔
      (w.extractLsb' 5 2 = 0b00#2 ∧ w.getLsbD 24 = false ∧ w.getLsbD 23 = false ∧ w.getLsbD 22 = true) ∨
        (w.extractLsb' 5 2 = 0b00#2 ∧ w.getLsbD 24 = true ∧
          (w.getLsbD 23 = true ∨ w.getLsbD 21 = true ∨ w.getLsbD 20 = true ∨ w.extractLsb' 8 4 ≠ 0#4)) ∨
        ((w.extractLsb' 5 2 = 0b10#2 ∨ w.extractLsb' 5 2 = 0b11#2) ∧ w.getLsbD 20 = false) ∨
        (w.extractLsb' 5 2 ≠ 0b00#2 ∧ w.getLsbD 22 = false ∧ w.extractLsb' 8 4 ≠ 0#4) := by
  unfold decodeExtension
  by_cases hsh : w.extractLsb' 5 2 = 0b00#2
  · rw [if_pos hsh]
    cases h24 : w.getLsbD 24
    · rw [if_neg Bool.false_ne_true, decodeMultiply_isReserved_iff]
      simp [hsh, -BitVec.getLsbD_eq_getElem]
    · rw [if_pos rfl, decodeSwap_isReserved_iff]
      simp [hsh, -BitVec.getLsbD_eq_getElem]
  · rw [if_neg hsh]
    cases h22 : w.getLsbD 22
    · rw [if_neg Bool.false_ne_true, decodeHalfwordReg_isReserved_iff hsh]
      simp [hsh, -BitVec.getLsbD_eq_getElem]
    · rw [if_pos rfl, decodeHalfwordImm_isReserved_iff hsh]
      simp [hsh, -BitVec.getLsbD_eq_getElem]

/-- The eight classes of formats (R82). -/
theorem classOf_cases (w : Word) :
    classOf w = 0b000#3 ∨ classOf w = 0b001#3 ∨ classOf w = 0b010#3 ∨ classOf w = 0b011#3 ∨ classOf w = 0b100#3 ∨
      classOf w = 0b101#3 ∨ classOf w = 0b110#3 ∨ classOf w = 0b111#3 := by
  generalize classOf w = x
  revert x
  decide

/-- In the classes 000 and 001, outside the space of the multiplies, only the compare space holds reserved words. -/
theorem decode_isReserved_of_dataProcessing {w : Word} (hcls : classOf w = 0b000#3 ∨ classOf w = 0b001#3)
    (hext : ¬(classOf w = 0b000#3 ∧ w.getLsbD 7 = true ∧ w.getLsbD 4 = true)) :
    (decode w).isReserved = true ↔
      w.extractLsb' 23 2 = 0b10#2 ∧ w.getLsbD 20 = false ∧ (decodeStatus w).isReserved = true := by
  by_cases hspace : w.extractLsb' 23 2 = 0b10#2 ∧ w.getLsbD 20 = false
  · obtain ⟨hop, h20⟩ := hspace
    rw [decode_of_compareSpace hcls hext hop h20]
    exact ⟨fun h => ⟨hop, h20, h⟩, fun h => h.2.2⟩
  · have hs : w.extractLsb' 23 2 = 0b10#2 → w.getLsbD 20 = true := fun hop =>
      Bool.eq_true_of_not_eq_false fun h20 => hspace ⟨hop, h20⟩
    have haccepted : (decode w).isReserved = false := by
      rcases hcls with h | h
      · cases h4 : w.getLsbD 4
        · rw [decode_of_dpReg3 h h4 hs]; rfl
        · have h7 : w.getLsbD 7 = false := Bool.eq_false_iff.2 fun h7 => hext ⟨h, h7, h4⟩
          rw [decode_of_dpReg4 h h7 h4 hs]; rfl
      · rw [decode_of_dpImm h hs]; rfl
    rw [haccepted]
    exact ⟨fun h => absurd h Bool.false_ne_true, fun h => absurd ⟨h.1, h.2.1⟩ hspace⟩

/-- Settles O4, class by class: each branch of the decoder rejects what R100, R101, R102 or R104 reserve of it. -/
theorem reservedWordsAreThoseListed : Obligations.ReservedWordsAreThoseListed := by
  unfold Obligations.ReservedWordsAreThoseListed
  intro w
  rw [← Decoded.isReserved_iff]
  have hfield : w.extractLsb' 25 3 = classOf w := rfl
  simp only [reservedWord, hfield]
  obtain h | h | h | h | h | h | h | h := classOf_cases w
  · by_cases hext : w.getLsbD 7 = true ∧ w.getLsbD 4 = true
    · rw [decode_of_extension h hext.1 hext.2, decodeExtension_isReserved_iff]
      simp [h, hext, -BitVec.getLsbD_eq_getElem]
    · have hnot : ¬(classOf w = 0b000#3 ∧ w.getLsbD 7 = true ∧ w.getLsbD 4 = true) := fun he => hext he.2
      rw [decode_isReserved_of_dataProcessing (.inl h) hnot, decodeStatus_isReserved_iff]
      simp [h, hext, -BitVec.getLsbD_eq_getElem]
  · have hnot : ¬(classOf w = 0b000#3 ∧ w.getLsbD 7 = true ∧ w.getLsbD 4 = true) := by simp [h]
    rw [decode_isReserved_of_dataProcessing (.inr h) hnot, decodeStatus_isReserved_iff]
    simp [h, -BitVec.getLsbD_eq_getElem]
  · simp [decode_of_transferImm h, Decoded.isReserved, h]
  · cases h4 : w.getLsbD 4
    · simp [decode_of_transferReg h h4, Decoded.isReserved, h]
    · simp [decode_of_registerOffsetBit4 h h4, Decoded.isReserved, h]
  · simp [decode_of_block h, Decoded.isReserved, h]
  · simp [decode_of_branch h, Decoded.isReserved, h]
  · simp [decode_of_noFormatClass (.inl h), Decoded.isReserved, h]
  · simp [decode_of_noFormatClass (.inr h), Decoded.isReserved, h]

/-- Settles O5: the decoder evaluates to the printed instruction on each of the eight words. -/
theorem sourceWordsDecode : Obligations.SourceWordsDecode := by
  unfold Obligations.SourceWordsDecode
  decide

end Sys2Proof
end

section
/-! What every instruction does, said once: the order of its faults and its frame. The whole-machine statements of
10_state.md, 20_memory.md, 60_exceptions.md and 70_reset_and_hazards.md are derived from it. -/

namespace Sys2Proof.Machine

open Claims

/-! ### The checks, as the tables of R322 and R323 have them -/

/-- A check that raises `f` exactly when the operands are not well formed. -/
theorem raiseIf_eq_of_none_iff {b ok : Bool} {f : Fault} (h : raiseIf b f = none ↔ ok = true) :
    raiseIf b f = if ok then none else some f := by
  rw [raiseIf_eq_none_iff] at h
  cases b <;> cases ok <;> simp_all [raiseIf]

theorem pcDestCheck_eq (sf : Bool) (rd : Reg) :
    pcDestCheck sf rd = if pcDestOk sf rd then none else some (.unpredictable .sWithPcDest) :=
  raiseIf_eq_of_none_iff (by simp only [raiseIf_eq_none_iff, pcDestOk, Bool.not_eq_true'])

theorem anyPc_eq_not_noPc (rs : List Reg) : anyPc rs = !noPc rs := by
  simp only [anyPc, noPc, List.not_all_eq_any_not, bne, Bool.not_not]

theorem reg4Check_eq (rs : List Reg) :
    reg4Check rs = if noPc rs then none else some (.unpredictable .r15InReg4) :=
  raiseIf_eq_of_none_iff (by simp only [raiseIf_eq_none_iff, anyPc_eq_not_noPc, Bool.not_eq_false'])

theorem mulCheck_eq_of_mul (rd rs rm : Reg) :
    mulCheck rd rm [rd, rm, rs] = if mulOk rd rs rm then none else some (.unpredictable .mulOperands) :=
  raiseIf_eq_of_none_iff ((mulCheck_eq_none_iff _ _ _).trans (by simp [mulOk, noPc]; tauto))

theorem mulCheck_eq_of_mla (rd rn rs rm : Reg) :
    mulCheck rd rm [rd, rm, rs, rn] =
      if mulOk rd rs rm && rn != regPC then none else some (.unpredictable .mulOperands) :=
  raiseIf_eq_of_none_iff ((mulCheck_eq_none_iff _ _ _).trans (by simp [mulOk, noPc]; tauto))

theorem longMulCheck_eq (rdHi rdLo rs rm : Reg) :
    longMulCheck rdHi rdLo rs rm =
      if longMulOk rdHi rdLo rs rm then none else some (.unpredictable .mulOperands) :=
  raiseIf_eq_of_none_iff (longMulCheck_eq_none_iff _ _ _ _)

theorem swapCheck_eq (rn rd rm : Reg) :
    swapCheck rn rd rm = if swapOk rn rd rm then none else some (.unpredictable .swapOperands) :=
  raiseIf_eq_of_none_iff (swapCheck_eq_none_iff _ _ _)

theorem psrCheck_eq (r : Reg) : psrCheck r = if r != regPC then none else some (.unpredictable .psrOperands) :=
  raiseIf_eq_of_none_iff (by simp [raiseIf_eq_none_iff])

/-- LDR may load R15 (R244). -/
theorem transferImmCheck_eq_of_ldr (ix : Indexing) (rn rd : Reg) :
    transferImmCheck ix rn rd false = if baseOk ix rn rd then none else some (.unpredictable .transferOperands) :=
  raiseIf_eq_of_none_iff ((transferImmCheck_eq_none_iff _ _ _ _).trans (by simp))

theorem transferImmCheck_eq (ix : Indexing) (rn rd : Reg) :
    transferImmCheck ix rn rd true =
      if baseOk ix rn rd && rd != regPC then none else some (.unpredictable .transferOperands) :=
  raiseIf_eq_of_none_iff ((transferImmCheck_eq_none_iff _ _ _ _).trans (by simp))

theorem transferRegCheck_eq_of_ldr (ix : Indexing) (rn rd rm : Reg) :
    transferRegCheck ix rn rd rm false =
      if baseOk ix rn rd && indexOk ix rn rm then none else some (.unpredictable .transferOperands) :=
  raiseIf_eq_of_none_iff ((transferRegCheck_eq_none_iff _ _ _ _ _).trans (by simp))

theorem transferRegCheck_eq (ix : Indexing) (rn rd rm : Reg) :
    transferRegCheck ix rn rd rm true =
      if baseOk ix rn rd && indexOk ix rn rm && rd != regPC then none else some (.unpredictable .transferOperands) :=
  raiseIf_eq_of_none_iff ((transferRegCheck_eq_none_iff _ _ _ _ _).trans (by simp))

theorem blockCheck_eq_of_ldm (ix : Indexing) (rn : Reg) (list : BitVec 16) :
    blockCheck ix rn list false = if blockOk ix rn list then none else some (.unpredictable .blockOperands) :=
  raiseIf_eq_of_none_iff ((blockCheck_eq_none_iff _ _ _ _).trans (by simp))

theorem blockCheck_eq_of_stm (ix : Indexing) (rn : Reg) (list : BitVec 16) :
    blockCheck ix rn list true =
      if blockOk ix rn list && !list.getLsbD 15 then none else some (.unpredictable .blockOperands) :=
  raiseIf_eq_of_none_iff ((blockCheck_eq_none_iff _ _ _ _).trans (by simp))

theorem rrxCheck_eq (c : Config) (o : ShiftedReg) :
    rrxCheck c o = (if o.isRrx && !c.admitRrx then some Feature.rrx else none).map .unsupported := by
  unfold rrxCheck ShiftedReg.isRrx raiseIf
  split <;> rfl

theorem admitCheck_eq (b : Bool) (f : Feature) : admitCheck b f = (if b then none else some f).map .unsupported := by
  cases b <;> rfl

/-- Of the two feature checks of MRS and MSR, admission comes before bit 22 (R304, R322). -/
theorem psrFeatureChecks_eq (admitted bit22 : Bool) :
    (admitCheck admitted .psr).or (spsrCheck bit22) =
      (if !admitted then some Feature.psr else if bit22 then some .spsr else none).map .unsupported := by
  cases admitted <;> cases bit22 <;> rfl

/-! ### The checks of the accesses (R329 step 9) -/

theorem accessFault_cons (c : Config) (a : Word) (n : Nat) (l : List Access) :
    accessFault c ((a, n) :: l) = (firstFault (accessChecks c a n)).or (accessFault c l) := by
  have hrange : (a.toNat < c.memBase.toNat ∨ c.memBase.toNat + c.memSize < a.toNat + n) ↔ inMemory c a n = false := by
    simp only [inMemory, Bool.and_eq_false_iff, decide_eq_false_iff_not, not_le]
  simp only [accessFault, hrange, accessChecks, firstFault_cons, firstFault_nil, alignFault, rangeFault]
  by_cases ha : a.toNat % n = 0 <;> cases hr : inMemory c a n <;> simp [ha, raiseIf]

theorem firstFault_accessChecks (c : Config) (a : Word) (n : Nat) :
    firstFault (accessChecks c a n) = accessFault c [(a, n)] := by
  rw [accessFault_cons, accessFault, Option.or_none]

/-- No access is stopped exactly when each is aligned and inside memory. -/
theorem accessFault_eq_none_iff (c : Config) (l : List Access) :
    accessFault c l = none ↔ ∀ x ∈ l, Access.allowed c x := by
  induction l with
  | nil => simp [accessFault]
  | cons x l ih =>
    obtain ⟨a, n⟩ := x
    rw [accessFault_cons, Option.or_eq_none_iff, firstFault_accessChecks_eq_none_iff, ih]
    simp [inMemory]

/-- What stops an access is one of the two data faults. -/
theorem eq_of_accessFault_eq_some {c : Config} {l : List Access} {f : Fault} (h : accessFault c l = some f) :
    ∃ a n, f = .dataMisaligned a n ∨ f = .accessOutOfRange a n := by
  induction l with
  | nil => cases h
  | cons x l ih =>
    simp only [accessFault] at h
    split at h
    · exact ⟨x.1, x.2, .inl (Option.some.inj h).symm⟩
    · split at h
      · exact ⟨x.1, x.2, .inr (Option.some.inj h).symm⟩
      · exact ih h

/-- The words of a block transfer, one after the other. -/
theorem blockAccesses_succ (a : Word) (n : Nat) :
    blockAccesses a (n + 1) = (a, 4) :: blockAccesses (a + 4#32) n := by
  have hnext : ∀ k, a + BitVec.ofNat 32 (4 * (k + 1)) = a + 4#32 + BitVec.ofNat 32 (4 * k) := by
    intro k
    rw [Nat.mul_add, Nat.add_comm, BitVec.ofNat_add, ← BitVec.add_assoc]
  simp only [blockAccesses, List.range_succ_eq_map, List.map_cons, List.map_map]
  simp [Function.comp_def, hnext]

/-- A block transfer checks the alignment of its first word alone; the other words are then aligned too. -/
theorem firstFault_blockRangeChecks_eq (c : Config) (l : List Reg) (a : Word) (ha : a.toNat % 4 = 0) :
    firstFault (blockRangeChecks c l a) = accessFault c (blockAccesses a l.length) := by
  induction l generalizing a with
  | nil => rfl
  | cons r rest ih =>
    have hnext : (a + 4#32).toNat % 4 = 0 := by
      simp only [BitVec.toNat_add, BitVec.toNat_ofNat]
      omega
    rw [blockRangeChecks, List.length_cons, blockAccesses_succ, accessFault_cons, firstFault_cons, ih _ hnext]
    simp [accessChecks, alignFault, ha, raiseIf, firstFault_cons]

theorem firstFault_blockChecks_eq (c : Config) (l : List Reg) (a : Word) (hl : l ≠ []) :
    firstFault (alignFault a 4 :: blockRangeChecks c l a) = accessFault c (blockAccesses a l.length) := by
  by_cases ha : a.toNat % 4 = 0
  · have hnone : alignFault a 4 = none := by simp [alignFault, ha]
    rw [hnone, firstFault_none_cons, firstFault_blockRangeChecks_eq c l a ha]
  · obtain ⟨r, rest, rfl⟩ := List.exists_cons_of_ne_nil hl
    rw [List.length_cons, blockAccesses_succ, accessFault_cons]
    simp [accessChecks, alignFault, ha, raiseIf]

/-- A list with a bit set has a register. -/
theorem registersOf_ne_nil {list : BitVec 16} (h : list ≠ 0#16) : registersOf list ≠ [] := by
  intro hnil
  apply h
  apply BitVec.eq_of_getLsbD_eq
  intro i hi
  have hmem := mem_registersOf list (BitVec.ofNat 4 i)
  rw [hnil, BitVec.toNat_ofNat, Nat.mod_eq_of_lt (show i < 2 ^ 4 from hi)] at hmem
  simpa using hmem

/-! ### The order of the faults of an instruction -/

/-- R329 steps 6 to 9: the feature, then the operands, then the accesses. -/
def faultOrder (missing : Option Feature) (ok : Bool) (reason : Option Reason) (access : Option Fault) :
    Option Fault :=
  match missing with
  | some f => some (.unsupported f)
  | none => if ok then access else reason.map .unpredictable

theorem instrFault_eq_faultOrder (i : Instr) (s : State) :
    instrFault i s =
      faultOrder (i.missingFeature s.cfg) i.wellFormed i.unpredictableReason (accessFault s.cfg (i.accesses s)) := rfl

/-- The three groups of checks of an instruction, in order. -/
theorem firstFault_eq_faultOrder {missing : Option Feature} {ok : Bool} {r : Reason} {access feature operands : Option Fault}
    {accesses : List (Option Fault)} (hfeature : feature = missing.map .unsupported)
    (hoperands : operands = if ok then none else some (.unpredictable r))
    (haccess : ok = true → firstFault accesses = access) :
    firstFault (feature :: operands :: accesses) = faultOrder missing ok (some r) access := by
  subst hfeature hoperands
  cases missing with
  | some f => rfl
  | none =>
    cases ok with
    | false => rfl
    | true => exact haccess rfl

/-- The checks of an instruction that has no operand rule. -/
theorem firstFault_eq_faultOrder_of_ok {missing : Option Feature} {reason : Option Reason} {feature : Option Fault}
    (hfeature : feature = missing.map .unsupported) :
    firstFault [feature] = faultOrder missing true reason none := by
  subst hfeature
  cases missing <;> rfl

/-- In the form reg4 the check of R15 comes before the check of S with Rd = 15. -/
theorem firstFault_reg4_eq_faultOrder (rs : List Reg) (sf : Bool) (rd : Reg) :
    firstFault [reg4Check rs, pcDestCheck sf rd] =
      faultOrder none (noPc rs && pcDestOk sf rd) (if noPc rs then some .sWithPcDest else some .r15InReg4) none := by
  rw [reg4Check_eq, pcDestCheck_eq]
  cases noPc rs <;> cases pcDestOk sf rd <;> rfl

/-! ### Memory that changes within given bytes -/

/-- `m'` is `m` after writes to bytes in `P` alone: other bytes read as before, the cells that `m'` lists and `m` does
not lie in `P`, and the canonical form is kept. -/
structure Memory.ChangedWithin (P : Nat → Prop) (m m' : Memory) : Prop where
  read : ∀ a, ¬P a → m'.read a = m.read a
  cells : ∀ c ∈ m', c ∈ m ∨ P c.1
  wf : m.wf → m'.wf

theorem Memory.ChangedWithin.refl (P : Nat → Prop) (m : Memory) : m.ChangedWithin P m :=
  ⟨fun _ _ => rfl, fun _ h => .inl h, id⟩

theorem Memory.ChangedWithin.store {P : Nat → Prop} {m m' : Memory} (h : m.ChangedWithin P m') {w : Width} {a : Nat}
    (v : Word) (hP : ∀ x, a ≤ x → x < a + w.bytes → P x) : m.ChangedWithin P (m'.store w a v) where
  read x hx := by
    rw [Memory.read_store_of_not_mem m' w a v x, h.read x hx]
    by_contra hin
    exact hx (hP x (by omega) (by omega))
  cells c hc := by
    rcases Memory.mem_store hc with hin | hin
    · exact .inr (hP c.1 hin.1 hin.2)
    · exact h.cells c hin
  wf hm := Memory.wf_store (h.wf hm) w a v

/-- The stores of an STM write the bytes of its accesses. -/
theorem Memory.ChangedWithin.storeRegs {P : Nat → Prop} {m m' : Memory} (h : m.ChangedWithin P m') (s : State)
    (l : List Reg) (a : Word) (hP : ∀ x ∈ blockAccesses a l.length, ∀ b, Access.covers x b → P b) :
    m.ChangedWithin P (s.storeRegs l a m') := by
  induction l generalizing a m' with
  | nil => exact h
  | cons r rest ih =>
    rw [List.length_cons, blockAccesses_succ] at hP
    have hstored : m.ChangedWithin P (m'.store .word a.toNat (s.reg r)) :=
      h.store _ fun x hle hlt => hP (a, 4) (List.mem_cons_self ..) x ⟨hle, hlt⟩
    exact ih hstored _ fun x hx => hP x (List.mem_cons_of_mem _ hx)

/-! ### Frames -/

/-- `t` is a state an instruction that executes in `s` may end in: it writes the registers `d` (R15 among them when it
writes the pc), the flags when `wf`, takes a draw when `draws`, and writes bytes in `P`. -/
structure Frame (d : List Reg) (wf draws : Bool) (P : Nat → Prop) (s t : State) : Prop where
  cfg : t.cfg = s.cfg
  mulDraws : t.mulDraws = if draws then s.mulDraws + 1 else s.mulDraws
  reg : ∀ r, r ≠ regPC → r ∉ d → t.reg r = s.reg r
  flags : wf = false → t.flags = s.flags
  pc : regPC ∉ d → t.pc = s.pc + 4#32
  mem : s.mem.ChangedWithin P t.mem

section Frame
variable {d : List Reg} {wf draws : Bool} {P : Nat → Prop} {s t : State}

theorem Frame.advance (d : List Reg) (wf : Bool) (P : Nat → Prop) (s : State) : Frame d wf false P s s.advance where
  cfg := rfl
  mulDraws := rfl
  reg _ hr _ := State.reg_advance hr s
  flags _ := rfl
  pc _ := rfl
  mem := .refl P s.mem

/-- An instruction that writes the pc need not advance it first. -/
theorem Frame.refl_of_pc (wf : Bool) (P : Nat → Prop) (s : State) (hpc : regPC ∈ d) : Frame d wf false P s s where
  cfg := rfl
  mulDraws := rfl
  reg _ _ _ := rfl
  flags _ := rfl
  pc h := absurd hpc h
  mem := .refl P s.mem

theorem Frame.setReg (h : Frame d wf draws P s t) {r : Reg} (hr : r ∈ d) (v : Word) :
    Frame d wf draws P s (t.setReg r v) where
  cfg := by rw [State.setReg_cfg, h.cfg]
  mulDraws := by rw [State.setReg_mulDraws, h.mulDraws]
  reg q hq hd := by rw [State.reg_setReg_ne hq (fun e => hd (e ▸ hr)), h.reg q hq hd]
  flags hwf := by rw [State.setReg_flags, h.flags hwf]
  pc hd := by rw [State.setReg_pc_of_ne (fun e => hd (e ▸ hr)), h.pc hd]
  mem := by rw [State.setReg_mem]; exact h.mem

theorem Frame.withFlags (h : Frame d wf draws P s t) {f : Flags} (hf : wf = false → f = s.flags) :
    Frame d wf draws P s (t.withFlags f) where
  cfg := h.cfg
  mulDraws := h.mulDraws
  reg := h.reg
  flags := hf
  pc := h.pc
  mem := h.mem

theorem Frame.withMem (h : Frame d wf draws P s t) {m : Memory} (hm : s.mem.ChangedWithin P m) :
    Frame d wf draws P s (t.withMem m) where
  cfg := h.cfg
  mulDraws := h.mulDraws
  reg := h.reg
  flags := h.flags
  pc := h.pc
  mem := hm

theorem Frame.withMulFlags {sf : Bool} (h : Frame d sf false P s t) (n z : Bool) :
    Frame d sf sf P s (t.withMulFlags sf n z) where
  cfg := by rw [State.withMulFlags_cfg, h.cfg]
  mulDraws := by rw [State.withMulFlags_mulDraws, h.mulDraws]; simp
  reg r hr hd := by rw [State.reg_withMulFlags, h.reg r hr hd]
  flags hsf := by rw [State.withMulFlags_flags, hsf, ← h.flags hsf]; rfl
  pc hd := by rw [State.withMulFlags_pc, h.pc hd]
  mem := by rw [State.withMulFlags_mem]; exact h.mem

theorem Frame.updateBase (h : Frame d wf draws P s t) {ix : Indexing} {rn : Reg} (hr : baseUpdated ix = true → rn ∈ d)
    (v : Word) : Frame d wf draws P s (t.updateBase ix rn v) := by
  unfold State.updateBase
  split
  · next hu => exact h.setReg (hr hu) v
  · exact h

theorem Frame.writeBack (h : Frame d wf draws P s t) {ix : Indexing} {rn : Reg} (hr : ix.w = true → rn ∈ d)
    (v : Word) : Frame d wf draws P s (t.writeBack ix rn v) := by
  unfold State.writeBack
  split
  · next hw => exact h.setReg (hr hw) v
  · exact h

theorem Frame.loadRegs (h : Frame d wf draws P s t) (m : Memory) {l : List Reg} (hl : ∀ r ∈ l, r ∈ d) (a : Word) :
    Frame d wf draws P s (State.loadRegs m l a t) := by
  induction l generalizing a t with
  | nil => exact h
  | cons r rest ih =>
    exact ih (h.setReg (hl r (List.mem_cons_self ..)) _) (fun q hq => hl q (List.mem_cons_of_mem _ hq)) _

end Frame

/-- Rn is a destination when the base is updated. -/
theorem mem_baseDestination {ix : Indexing} {rn : Reg} (h : baseUpdated ix = true) : rn ∈ ix.baseDestination rn := by
  simp [Indexing.baseDestination, show ix.updatesBase = true from h]

theorem dataProcess_frame (s : State) (sf : Bool) (rd : Reg) (r : AluResult) (P : Nat → Prop) :
    Frame [rd] sf false P s ((s.advance.withFlags (if sf then r.flags else s.flags)).setReg rd r.value) :=
  ((Frame.advance [rd] sf P s).withFlags (by rintro rfl; rfl)).setReg (List.mem_singleton_self rd) _

theorem compare_frame (s : State) (f : Flags) (P : Nat → Prop) : Frame [] true false P s (s.advance.withFlags f) :=
  (Frame.advance [] true P s).withFlags (fun h => Bool.noConfusion h)

theorem mul32_frame (s : State) (sf n z : Bool) (rd : Reg) (v : Word) (P : Nat → Prop) :
    Frame [rd] sf sf P s ((s.advance.withMulFlags sf n z).setReg rd v) :=
  ((Frame.advance [rd] sf P s).withMulFlags n z).setReg (List.mem_singleton_self rd) v

theorem mul64_frame (s : State) (sf n z : Bool) (rdHi rdLo : Reg) (hi lo : Word) (P : Nat → Prop) :
    Frame [rdHi, rdLo] sf sf P s (((s.advance.withMulFlags sf n z).setReg rdHi hi).setReg rdLo lo) :=
  (((Frame.advance [rdHi, rdLo] sf P s).withMulFlags n z).setReg (by simp) hi).setReg (by simp) lo

theorem load_frame (s : State) (ix : Indexing) (rn rd : Reg) (moved v : Word) (P : Nat → Prop) :
    Frame (rd :: ix.baseDestination rn) false false P s ((s.advance.updateBase ix rn moved).setReg rd v) :=
  ((Frame.advance _ false P s).updateBase (fun h => List.mem_cons_of_mem _ (mem_baseDestination h)) moved).setReg
    (List.mem_cons_self ..) v

theorem store_frame (s : State) (w : Width) (ix : Indexing) (rn : Reg) (moved a v : Word) {P : Nat → Prop}
    (hP : ∀ b, Access.covers (a, w.bytes) b → P b) :
    Frame (ix.baseDestination rn) false false P s
      ((s.advance.updateBase ix rn moved).withMem (s.mem.store w a.toNat v)) :=
  ((Frame.advance _ false P s).updateBase mem_baseDestination moved).withMem
    ((Memory.ChangedWithin.refl P s.mem).store v fun x hle hlt => hP x ⟨hle, hlt⟩)

theorem swap_frame (s : State) (w : Width) (rd : Reg) (a v loaded : Word) {P : Nat → Prop}
    (hP : ∀ b, Access.covers (a, w.bytes) b → P b) :
    Frame [rd] false false P s ((s.advance.withMem (s.mem.store w a.toNat v)).setReg rd loaded) :=
  ((Frame.advance [rd] false P s).withMem
    ((Memory.ChangedWithin.refl P s.mem).store v fun x hle hlt => hP x ⟨hle, hlt⟩)).setReg
    (List.mem_singleton_self rd) loaded

theorem ldm_frame (s : State) (ix : Indexing) (rn : Reg) (list : BitVec 16) (final a : Word) (P : Nat → Prop) :
    Frame ((if ix.w then [rn] else []) ++ registersOf list) false false P s
      (State.loadRegs s.mem (registersOf list) a (s.advance.writeBack ix rn final)) :=
  ((Frame.advance _ false P s).writeBack (fun h => by simp [h]) final).loadRegs s.mem
    (fun _ hr => List.mem_append_right _ hr) a

theorem stm_frame (s : State) (ix : Indexing) (rn : Reg) (l : List Reg) (final a : Word) {P : Nat → Prop}
    (hP : ∀ x ∈ blockAccesses a l.length, ∀ b, Access.covers x b → P b) :
    Frame (if ix.w then [rn] else []) false false P s
      ((s.advance.writeBack ix rn final).withMem (s.storeRegs l a s.mem)) :=
  ((Frame.advance _ false P s).writeBack (fun h => by simp [h]) final).withMem
    ((Memory.ChangedWithin.refl P s.mem).storeRegs s l a hP)

end Sys2Proof.Machine
end

section
/-! The meaning of every instruction, constructor by constructor: `execute` under its condition, with checks in the order
of R329 and a next state that keeps its frame. -/

namespace Sys2Proof.Machine

open Claims

/-- Instruction `i` in `s` is `execute` with these checks and this next state: the checks raise what R329 says, and the
state keeps the frame of the tables of R23 and R29 and of the accesses. -/
structure Meaning (i : Instr) (s : State) (checks : List (Option Fault)) (t : State) : Prop where
  exec_eq : exec i s = s.execute i.cond checks t
  faults : firstFault checks = instrFault i s
  frame : Frame i.destinations i.writesFlags i.drawsCarry (i.storesTo s) s t

/-! ### The faults of the groups of instructions -/

/-- An instruction that needs no feature is checked for its operands first. -/
theorem operandFaults_eq_faultOrder {ok : Bool} {r : Reason} {access operands : Option Fault}
    {accesses : List (Option Fault)} (hoperands : operands = if ok then none else some (.unpredictable r))
    (haccess : ok = true → firstFault accesses = access) :
    firstFault (operands :: accesses) = faultOrder none ok (some r) access :=
  firstFault_eq_faultOrder (feature := none) (missing := none) rfl hoperands haccess

/-- Two checks one after the other are one check. -/
theorem firstFault_or_cons (a b : Option Fault) (l : List (Option Fault)) :
    firstFault (a :: b :: l) = firstFault (a.or b :: l) := by
  cases a <;> rfl

theorem ne_zero_of_blockOk {ix : Indexing} {rn : Reg} {list : BitVec 16} (h : blockOk ix rn list = true) :
    list ≠ 0#16 := by
  rintro rfl
  exact Bool.false_ne_true h

theorem dpImm_faults (sf : Bool) (rd : Reg) :
    firstFault [pcDestCheck sf rd] = faultOrder none (pcDestOk sf rd) (some .sWithPcDest) none :=
  operandFaults_eq_faultOrder (pcDestCheck_eq sf rd) fun _ => rfl

theorem dpReg3_faults (c : Config) (o : ShiftedReg) (sf : Bool) (rd : Reg) :
    firstFault [rrxCheck c o, pcDestCheck sf rd] =
      faultOrder (if o.isRrx && !c.admitRrx then some .rrx else none) (pcDestOk sf rd) (some .sWithPcDest) none :=
  firstFault_eq_faultOrder (rrxCheck_eq c o) (pcDestCheck_eq sf rd) fun _ => rfl

/-- Every instruction is such an `execute`. Within a group the constructors differ in the value they compute alone, which
neither the faults nor the frame depend on. -/
theorem exec_meaning (i : Instr) (s : State) : ∃ checks t, Meaning i s checks t := by
  cases i with
  | andImm c sf rn rd o | eorImm c sf rn rd o | subImm c sf rn rd o | rsbImm c sf rn rd o | addImm c sf rn rd o
  | adcImm c sf rn rd o | sbcImm c sf rn rd o | rscImm c sf rn rd o | orrImm c sf rn rd o | movImm c sf rn rd o
  | bicImm c sf rn rd o | mvnImm c sf rn rd o =>
    exact ⟨_, _, rfl, dpImm_faults sf rd, dataProcess_frame s sf rd _ _⟩
  | andReg3 c sf rn rd o | eorReg3 c sf rn rd o | subReg3 c sf rn rd o | rsbReg3 c sf rn rd o | addReg3 c sf rn rd o
  | adcReg3 c sf rn rd o | sbcReg3 c sf rn rd o | rscReg3 c sf rn rd o | orrReg3 c sf rn rd o | movReg3 c sf rn rd o
  | bicReg3 c sf rn rd o | mvnReg3 c sf rn rd o =>
    exact ⟨_, _, rfl, dpReg3_faults s.cfg o sf rd, dataProcess_frame s sf rd _ _⟩
  | andReg4 c sf rn rd o | eorReg4 c sf rn rd o | subReg4 c sf rn rd o | rsbReg4 c sf rn rd o | addReg4 c sf rn rd o
  | adcReg4 c sf rn rd o | sbcReg4 c sf rn rd o | rscReg4 c sf rn rd o | orrReg4 c sf rn rd o | movReg4 c sf rn rd o
  | bicReg4 c sf rn rd o | mvnReg4 c sf rn rd o =>
    exact ⟨_, _, rfl, firstFault_reg4_eq_faultOrder _ sf rd, dataProcess_frame s sf rd _ _⟩
  | tstImm c rn rd o | teqImm c rn rd o | cmpImm c rn rd o | cmnImm c rn rd o =>
    exact ⟨[], _, rfl, rfl, compare_frame s _ _⟩
  | tstReg3 c rn rd o | teqReg3 c rn rd o | cmpReg3 c rn rd o | cmnReg3 c rn rd o =>
    exact ⟨_, _, rfl, firstFault_eq_faultOrder_of_ok (rrxCheck_eq s.cfg o), compare_frame s _ _⟩
  | tstReg4 c rn rd o | teqReg4 c rn rd o | cmpReg4 c rn rd o | cmnReg4 c rn rd o =>
    exact ⟨_, _, rfl, operandFaults_eq_faultOrder (reg4Check_eq _) fun _ => rfl,
      compare_frame s _ _⟩
  | mul c sf rd rn rs rm =>
    exact ⟨_, _, rfl, operandFaults_eq_faultOrder (mulCheck_eq_of_mul rd rs rm) fun _ => rfl,
      mul32_frame s sf _ _ rd _ _⟩
  | mla c sf rd rn rs rm =>
    exact ⟨_, _, rfl, operandFaults_eq_faultOrder (mulCheck_eq_of_mla rd rn rs rm) fun _ => rfl,
      mul32_frame s sf _ _ rd _ _⟩
  | umull c sf rdHi rdLo rs rm | umlal c sf rdHi rdLo rs rm | smull c sf rdHi rdLo rs rm | smlal c sf rdHi rdLo rs rm =>
    exact ⟨_, _, rfl,
      firstFault_eq_faultOrder (admitCheck_eq s.cfg.admitLongMul .longMultiply) (longMulCheck_eq rdHi rdLo rs rm)
        fun _ => rfl,
      mul64_frame s sf _ _ rdHi rdLo _ _ _⟩
  | swp c rn rd rm =>
    exact ⟨_, _, rfl,
      operandFaults_eq_faultOrder (swapCheck_eq rn rd rm) fun _ => firstFault_accessChecks _ _ _,
      swap_frame s .word rd _ _ _ fun b hb => ⟨rfl, _, List.mem_singleton_self _, hb⟩⟩
  | swpb c rn rd rm =>
    exact ⟨_, _, rfl,
      firstFault_eq_faultOrder (admitCheck_eq s.cfg.admitSwpb .swpb) (swapCheck_eq rn rd rm)
        fun _ => firstFault_accessChecks _ _ _,
      swap_frame s .byte rd _ _ _ fun b hb => ⟨rfl, _, List.mem_singleton_self _, hb⟩⟩
  | ldrhReg c ix rn rd rm | ldrsbReg c ix rn rd rm | ldrshReg c ix rn rd rm =>
    exact ⟨_, _, rfl,
      firstFault_eq_faultOrder (admitCheck_eq s.cfg.admitHalfword .halfword) (transferRegCheck_eq ix rn rd rm)
        fun _ => firstFault_accessChecks _ _ _,
      load_frame s ix rn rd _ _ _⟩
  | ldrhImm c ix rn rd off | ldrsbImm c ix rn rd off | ldrshImm c ix rn rd off =>
    exact ⟨_, _, rfl,
      firstFault_eq_faultOrder (admitCheck_eq s.cfg.admitHalfword .halfword) (transferImmCheck_eq ix rn rd)
        fun _ => firstFault_accessChecks _ _ _,
      load_frame s ix rn rd _ _ _⟩
  | strhReg c ix rn rd rm =>
    exact ⟨_, _, rfl,
      firstFault_eq_faultOrder (admitCheck_eq s.cfg.admitHalfword .halfword) (transferRegCheck_eq ix rn rd rm)
        fun _ => firstFault_accessChecks _ _ _,
      store_frame s .half ix rn _ _ _ fun b hb => ⟨rfl, _, List.mem_singleton_self _, hb⟩⟩
  | strhImm c ix rn rd off =>
    exact ⟨_, _, rfl,
      firstFault_eq_faultOrder (admitCheck_eq s.cfg.admitHalfword .halfword) (transferImmCheck_eq ix rn rd)
        fun _ => firstFault_accessChecks _ _ _,
      store_frame s .half ix rn _ _ _ fun b hb => ⟨rfl, _, List.mem_singleton_self _, hb⟩⟩
  | bx c rn => exact ⟨[], _, rfl, rfl, (Frame.refl_of_pc false _ s (List.mem_singleton_self _)).setReg
      (List.mem_singleton_self _) _⟩
  | mrs c ps rd =>
    exact ⟨_, _, rfl,
      (firstFault_or_cons _ _ _).trans
        (firstFault_eq_faultOrder (psrFeatureChecks_eq s.cfg.admitPsr ps) (psrCheck_eq rd) fun _ => rfl),
      (Frame.advance _ false _ s).setReg (List.mem_singleton_self rd) _⟩
  | msrReg c pd rm | msrRegFlags c pd rm =>
    exact ⟨_, _, rfl,
      (firstFault_or_cons _ _ _).trans
        (firstFault_eq_faultOrder (psrFeatureChecks_eq s.cfg.admitPsr pd) (psrCheck_eq rm) fun _ => rfl),
      compare_frame s _ _⟩
  | msrImmFlags c pd o =>
    exact ⟨_, _, rfl,
      (firstFault_or_cons _ _ _).trans (firstFault_eq_faultOrder_of_ok (psrFeatureChecks_eq s.cfg.admitPsr pd)),
      compare_frame s _ _⟩
  | ldrImm c ix rn rd off =>
    exact ⟨_, _, rfl,
      operandFaults_eq_faultOrder (transferImmCheck_eq_of_ldr ix rn rd)
        fun _ => firstFault_accessChecks _ _ _,
      load_frame s ix rn rd _ _ _⟩
  | ldrReg c ix rn rd o =>
    exact ⟨_, _, rfl,
      firstFault_eq_faultOrder (rrxCheck_eq s.cfg o) (transferRegCheck_eq_of_ldr ix rn rd o.rm)
        fun _ => firstFault_accessChecks _ _ _,
      load_frame s ix rn rd _ _ _⟩
  | ldrbImm c ix rn rd off =>
    exact ⟨_, _, rfl,
      operandFaults_eq_faultOrder (transferImmCheck_eq ix rn rd)
        fun _ => firstFault_accessChecks _ _ _,
      load_frame s ix rn rd _ _ _⟩
  | ldrbReg c ix rn rd o =>
    exact ⟨_, _, rfl,
      firstFault_eq_faultOrder (rrxCheck_eq s.cfg o) (transferRegCheck_eq ix rn rd o.rm)
        fun _ => firstFault_accessChecks _ _ _,
      load_frame s ix rn rd _ _ _⟩
  | strImm c ix rn rd off =>
    exact ⟨_, _, rfl,
      operandFaults_eq_faultOrder (transferImmCheck_eq ix rn rd)
        fun _ => firstFault_accessChecks _ _ _,
      store_frame s .word ix rn _ _ _ fun b hb => ⟨rfl, _, List.mem_singleton_self _, hb⟩⟩
  | strReg c ix rn rd o =>
    exact ⟨_, _, rfl,
      firstFault_eq_faultOrder (rrxCheck_eq s.cfg o) (transferRegCheck_eq ix rn rd o.rm)
        fun _ => firstFault_accessChecks _ _ _,
      store_frame s .word ix rn _ _ _ fun b hb => ⟨rfl, _, List.mem_singleton_self _, hb⟩⟩
  | strbImm c ix rn rd off =>
    exact ⟨_, _, rfl,
      operandFaults_eq_faultOrder (transferImmCheck_eq ix rn rd)
        fun _ => firstFault_accessChecks _ _ _,
      store_frame s .byte ix rn _ _ _ fun b hb => ⟨rfl, _, List.mem_singleton_self _, hb⟩⟩
  | strbReg c ix rn rd o =>
    exact ⟨_, _, rfl,
      firstFault_eq_faultOrder (rrxCheck_eq s.cfg o) (transferRegCheck_eq ix rn rd o.rm)
        fun _ => firstFault_accessChecks _ _ _,
      store_frame s .byte ix rn _ _ _ fun b hb => ⟨rfl, _, List.mem_singleton_self _, hb⟩⟩
  | ldm c ix rn list =>
    exact ⟨_, _, rfl,
      operandFaults_eq_faultOrder (blockCheck_eq_of_ldm ix rn list)
        fun hok => firstFault_blockChecks_eq s.cfg _ _ (registersOf_ne_nil (ne_zero_of_blockOk hok)),
      ldm_frame s ix rn list _ _ _⟩
  | stm c ix rn list =>
    exact ⟨_, _, rfl,
      operandFaults_eq_faultOrder (blockCheck_eq_of_stm ix rn list)
        fun hok => firstFault_blockChecks_eq s.cfg _ _
          (registersOf_ne_nil (ne_zero_of_blockOk (Bool.and_eq_true_iff.1 hok).1)),
      stm_frame s ix rn (registersOf list) _ _ fun x hx b hb => ⟨rfl, x, hx, hb⟩⟩
  | ldmS c ix rn list | stmS c ix rn list =>
    exact ⟨[some (.unsupported .blockS)], s.advance, rfl, rfl, Frame.advance _ false _ s⟩
  | b c off =>
    exact ⟨[], _, rfl, rfl,
      (Frame.refl_of_pc false _ s (List.mem_singleton_self _)).setReg (List.mem_singleton_self _) _⟩
  | bl c off =>
    exact ⟨[], _, rfl, rfl,
      ((Frame.refl_of_pc (d := [regLR, regPC]) false _ s (by simp)).setReg (by simp) _).setReg (by simp) _⟩

end Sys2Proof.Machine
end

section
/-! Proofs of the whole-machine statements: frames (10_state.md, 20_memory.md section 4), faults (60_exceptions.md), the
step (41_conditional_execution.md) and its invariant (00_scope.md section 4, 70_reset_and_hazards.md). -/

namespace Sys2Proof.Machine

open Claims

/-! ### What `exec` can answer -/

/-- An instruction completes in two ways: its condition fails and only the pc advances, or nothing stops it and the state
keeps its frame. -/
theorem frame_of_exec_eq_next {i : Instr} {s t : State} (h : exec i s = .next t) :
    (condPassed i.cond s.flags = false ∧ t = s.advance) ∨
      (condPassed i.cond s.flags = true ∧ instrFault i s = none ∧
        Frame i.destinations i.writesFlags i.drawsCarry (i.storesTo s) s t) := by
  obtain ⟨checks, u, hm⟩ := exec_meaning i s
  rw [hm.exec_eq, State.execute_eq_next_iff, hm.faults] at h
  obtain h | ⟨hc, hf, rfl⟩ := h
  · exact .inl h
  · exact .inr ⟨hc, hf, hm.frame⟩

/-- An instruction faults exactly when its condition passes and R329 names the fault. -/
theorem exec_eq_fault_iff (i : Instr) (s : State) (f : Fault) :
    exec i s = .fault f ↔ condPassed i.cond s.flags = true ∧ instrFault i s = some f := by
  obtain ⟨checks, u, hm⟩ := exec_meaning i s
  rw [hm.exec_eq, State.execute_eq_fault_iff, hm.faults]

theorem exec_completes {i : Instr} {s : State} (h : instrFault i s = none) : ∃ t, exec i s = .next t := by
  obtain ⟨checks, u, hm⟩ := exec_meaning i s
  rw [hm.exec_eq]
  cases hc : condPassed i.cond s.flags
  · exact ⟨_, State.execute_of_not_passed hc⟩
  · exact ⟨u, State.execute_of_passed hc (hm.faults.trans h)⟩

/-- No instruction is refused. -/
theorem exec_ne_refused (i : Instr) (s : State) (r : Refusal) : exec i s ≠ .refused r := by
  obtain ⟨checks, u, hm⟩ := exec_meaning i s
  rw [hm.exec_eq, State.execute]
  cases condPassed i.cond s.flags <;> cases firstFault checks <;> simp

/-- The frame of an instruction that completes, its condition passed or not; a skipped one takes no draw. -/
theorem frame_or_skipped {i : Instr} {s t : State} (h : exec i s = .next t) :
    ∃ draws, Frame i.destinations i.writesFlags draws (i.storesTo s) s t := by
  obtain ⟨hc, rfl⟩ | ⟨-, -, hframe⟩ := frame_of_exec_eq_next h
  · exact ⟨false, Frame.advance _ _ _ s⟩
  · exact ⟨_, hframe⟩

/-! ### Frames of the whole machine -/

/-- Settles O17: skipped or executed, by the frame. -/
theorem execKeepsParameters : Obligations.ExecKeepsParameters := by
  unfold Obligations.ExecKeepsParameters
  intro i s t h
  obtain ⟨hc, rfl⟩ | ⟨hc, -, hframe⟩ := frame_of_exec_eq_next h
  · simp [hc]
  · exact ⟨hframe.cfg, by rw [hframe.mulDraws]; simp [hc]⟩

/-- Settles O19 from the frame. -/
theorem onlyDestinationsChange : Obligations.OnlyDestinationsChange := by
  unfold Obligations.OnlyDestinationsChange
  intro i s t r h hr hd
  obtain ⟨_, hframe⟩ := frame_or_skipped h
  exact hframe.reg r hr hd

/-- Settles O20 from the frame. -/
theorem onlyFlagWritersChangeFlags : Obligations.OnlyFlagWritersChangeFlags := by
  unfold Obligations.OnlyFlagWritersChangeFlags
  intro i s t h hwf
  obtain ⟨_, hframe⟩ := frame_or_skipped h
  exact hframe.flags hwf

/-- Settles O21 from the frame. -/
theorem onlyStoredBytesChange : Obligations.OnlyStoredBytesChange := by
  unfold Obligations.OnlyStoredBytesChange
  intro i s t a h ha
  obtain ⟨_, hframe⟩ := frame_or_skipped h
  exact hframe.mem.read a ha

/-- Settles O22: a skipped instruction advances the pc, an executed one by its frame. -/
theorem pcAdvancesUnlessWritten : Obligations.PcAdvancesUnlessWritten := by
  unfold Obligations.PcAdvancesUnlessWritten
  intro i s t h hpc
  obtain ⟨-, rfl⟩ | ⟨hc, -, hframe⟩ := frame_of_exec_eq_next h
  · rfl
  · obtain hc' | hd := hpc
    · rw [hc] at hc'; cases hc'
    · exact hframe.pc hd

theorem aligned_add_four {a : Word} (h : a.toNat % 4 = 0) : (a + 4#32).toNat % 4 = 0 := by
  simp only [BitVec.toNat_add, BitVec.toNat_ofNat]
  omega

/-- The target of B and BL is a multiple of 4 from an aligned pc (R200). -/
theorem branchTarget_aligned {s : State} (h : s.pc.toNat % 4 = 0) (off : BitVec 24) :
    (s.branchTarget off).toNat % 4 = 0 := by
  simp only [State.branchTarget, BitVec.toNat_add, BitVec.toNat_mul, BitVec.toNat_ofNat]
  omega

theorem exec_b (s : State) (c : Cond) (off : BitVec 24) :
    exec (.b c off) s = s.execute c [] (s.setReg regPC (s.branchTarget off)) := rfl

theorem exec_bl (s : State) (c : Cond) (off : BitVec 24) :
    exec (.bl c off) s =
      s.execute c [] ((s.setReg regLR (s.pc + 4#32)).setReg regPC (s.branchTarget off)) := rfl

/-- Settles O23: a branch with an offset goes to an aligned target, and pc + 4 is aligned. -/
theorem pcStaysAligned : Obligations.PcStaysAligned := by
  unfold Obligations.PcStaysAligned
  intro i s t h ha hi
  obtain ⟨c, off, rfl | rfl⟩ | hd := hi
  · rw [exec_b, State.execute_eq_next_iff] at h
    obtain ⟨-, rfl⟩ | ⟨-, -, rfl⟩ := h
    · exact aligned_add_four ha
    · exact branchTarget_aligned ha off
  · rw [exec_bl, State.execute_eq_next_iff] at h
    obtain ⟨-, rfl⟩ | ⟨-, -, rfl⟩ := h
    · exact aligned_add_four ha
    · exact branchTarget_aligned ha off
  · rw [pcAdvancesUnlessWritten i s t h (.inr hd)]
    exact aligned_add_four ha

/-! ### Faults of an instruction -/

/-- Operands that are ill formed have a reason in the table of R323. -/
theorem exists_reason_of_not_wellFormed {i : Instr} (h : i.wellFormed = false) :
    ∃ r, i.unpredictableReason = some r := by
  cases i with
  | tstImm | teqImm | cmpImm | cmnImm | tstReg3 | teqReg3 | cmpReg3 | cmnReg3 | bx | msrImmFlags | ldmS | stmS | b | bl =>
    cases h
  | andReg4 | eorReg4 | subReg4 | rsbReg4 | addReg4 | adcReg4 | sbcReg4 | rscReg4 | orrReg4 | bicReg4 | movReg4
  | mvnReg4 =>
    simp only [Instr.unpredictableReason]
    split <;> exact ⟨_, rfl⟩
  | _ => exact ⟨_, rfl⟩

theorem instrFault_of_missing {i : Instr} {s : State} {f : Feature} (h : i.missingFeature s.cfg = some f) :
    instrFault i s = some (.unsupported f) := by
  rw [instrFault_eq_faultOrder, h]; rfl

theorem instrFault_of_illFormed {i : Instr} {s : State} {r : Reason} (hm : i.missingFeature s.cfg = none)
    (hw : i.wellFormed = false) (hr : i.unpredictableReason = some r) : instrFault i s = some (.unpredictable r) := by
  rw [instrFault_eq_faultOrder, hm, hw, hr]; rfl

theorem instrFault_of_wellFormed {i : Instr} {s : State} (hm : i.missingFeature s.cfg = none)
    (hw : i.wellFormed = true) : instrFault i s = accessFault s.cfg (i.accesses s) := by
  rw [instrFault_eq_faultOrder, hm, hw]; rfl

/-- The three groups of R329 steps 6 to 9: exactly one of them speaks. -/
theorem instrFault_cases (i : Instr) (s : State) :
    (∃ f, i.missingFeature s.cfg = some f ∧ instrFault i s = some (.unsupported f)) ∨
      (i.missingFeature s.cfg = none ∧ i.wellFormed = false ∧
        ∃ r, i.unpredictableReason = some r ∧ instrFault i s = some (.unpredictable r)) ∨
      (i.missingFeature s.cfg = none ∧ i.wellFormed = true ∧ instrFault i s = accessFault s.cfg (i.accesses s)) := by
  cases hm : i.missingFeature s.cfg with
  | some f => exact .inl ⟨f, rfl, instrFault_of_missing hm⟩
  | none =>
    cases hw : i.wellFormed with
    | false =>
      obtain ⟨r, hr⟩ := exists_reason_of_not_wellFormed hw
      exact .inr (.inl ⟨rfl, rfl, r, hr, instrFault_of_illFormed hm hw hr⟩)
    | true => exact .inr (.inr ⟨rfl, rfl, instrFault_of_wellFormed hm hw⟩)

theorem accessFault_ne_unsupported (c : Config) (l : List Access) (f : Feature) :
    accessFault c l ≠ some (.unsupported f) := by
  intro h
  obtain ⟨a, n, h | h⟩ := eq_of_accessFault_eq_some h <;> cases h

theorem accessFault_ne_unpredictable (c : Config) (l : List Access) (r : Reason) :
    accessFault c l ≠ some (.unpredictable r) := by
  intro h
  obtain ⟨a, n, h | h⟩ := eq_of_accessFault_eq_some h <;> cases h

/-- An instruction that nothing stops has good accesses. -/
theorem allowed_of_instrFault_eq_none {i : Instr} {s : State} (h : instrFault i s = none) :
    ∀ x ∈ i.accesses s, Access.allowed s.cfg x := by
  obtain ⟨f, -, hf⟩ | ⟨-, -, r, -, hf⟩ | ⟨-, -, hf⟩ := instrFault_cases i s
  · rw [h] at hf; cases hf
  · rw [h] at hf; cases hf
  · exact (accessFault_eq_none_iff s.cfg _).1 (hf.symm.trans h)

/-- Settles O24: with the feature, good operands and good accesses none of the three groups raises. -/
theorem admittedInstructionCompletes : Obligations.AdmittedInstructionCompletes := by
  unfold Obligations.AdmittedInstructionCompletes
  intro i s _ hm hw ha
  exact exec_completes ((instrFault_of_wellFormed hm hw).trans ((accessFault_eq_none_iff s.cfg _).2 ha))

/-- Settles O25: only the first of the three groups raises Unsupported. -/
theorem unsupportedExactlyWhenMissing : Obligations.UnsupportedExactlyWhenMissing := by
  unfold Obligations.UnsupportedExactlyWhenMissing
  intro i s f
  rw [exec_eq_fault_iff]
  refine and_congr_right fun _ => ⟨fun h => ?_, instrFault_of_missing⟩
  obtain ⟨g, hg, hf⟩ | ⟨-, -, r, -, hf⟩ | ⟨-, -, hf⟩ := instrFault_cases i s
  · rw [h] at hf; cases hf; exact hg
  · rw [h] at hf; cases hf
  · exact absurd (hf.symm.trans h) (accessFault_ne_unsupported _ _ f)

/-- Settles O26: only the second of the three groups raises Unpredictable. -/
theorem unpredictableExactlyWhenIllFormed : Obligations.UnpredictableExactlyWhenIllFormed := by
  unfold Obligations.UnpredictableExactlyWhenIllFormed
  intro i s r
  rw [exec_eq_fault_iff]
  refine and_congr_right fun _ => ⟨fun h => ?_, fun ⟨hm, hw, hr⟩ => instrFault_of_illFormed hm hw hr⟩
  obtain ⟨g, -, hf⟩ | ⟨hm, hw, q, hq, hf⟩ | ⟨-, -, hf⟩ := instrFault_cases i s
  · rw [h] at hf; cases hf
  · rw [h] at hf; cases hf; exact ⟨hm, hw, hq⟩
  · exact absurd (hf.symm.trans h) (accessFault_ne_unpredictable _ _ r)

/-- Accesses that are allowed are passed over. -/
theorem accessFault_append_of_allowed (c : Config) (before l : List Access)
    (h : ∀ x ∈ before, Access.allowed c x) : accessFault c (before ++ l) = accessFault c l := by
  induction before with
  | nil => rfl
  | cons y before ih =>
    have hy := (accessFault_eq_none_iff c [y]).2 (by simpa using h y (List.mem_cons_self ..))
    rw [accessFault_cons, accessFault, Option.or_none] at hy
    rw [List.cons_append, accessFault_cons, hy, Option.none_or, ih fun x hx => h x (List.mem_cons_of_mem _ hx)]

theorem accessFault_cons_of_not_allowed (c : Config) (x : Access) (l : List Access) (h : ¬Access.allowed c x) :
    accessFault c (x :: l) =
      some (if x.1.toNat % x.2 = 0 then .accessOutOfRange x.1 x.2 else .dataMisaligned x.1 x.2) := by
  by_cases ha : x.1.toNat % x.2 = 0
  · have hout : x.1.toNat < c.memBase.toNat ∨ c.memBase.toNat + c.memSize < x.1.toNat + x.2 := by
      by_contra hin
      rw [not_or, not_lt, not_lt] at hin
      exact h ⟨ha, hin.1, hin.2⟩
    simp only [accessFault, ne_eq, ha, not_true_eq_false, if_false, hout, if_true]
  · simp only [accessFault, ne_eq, ha, not_false_eq_true, if_true, if_false]

/-- Settles O27: the allowed accesses before it are passed over, and the first bad one is named. -/
theorem firstBadAccessFaults : Obligations.FirstBadAccessFaults := by
  unfold Obligations.FirstBadAccessFaults
  intro i s before after x hc hm hw hacc hbefore hx
  rw [exec_eq_fault_iff]
  refine ⟨hc, ?_⟩
  rw [instrFault_of_wellFormed hm hw, hacc, accessFault_append_of_allowed _ _ _ hbefore,
    accessFault_cons_of_not_allowed _ _ _ hx]

/-! ### The step -/

theorem step_of_fetchFault {s : State} {f : Fault} (h : s.fetchFault = some f) : step s = .fault f := by
  simp only [step, cycle, h]

theorem step_of_reserved {s : State} {why : Reserved} (hfetch : s.fetchFault = none)
    (hc : condPassed (condOf s.fetchWord) s.flags = true) (hd : decode s.fetchWord = .reserved why) :
    step s = .fault (.reservedEncoding s.fetchWord) := by
  simp only [step, cycle, hfetch, hc, hd, if_true]

theorem condOf_of_field {w : Word} {c : Cond} (h : w.extractLsb' 28 4 = c.bits) : condOf w = c := by
  rw [condOf, h, Cond.ofBits_bits]

/-- Every format begins with the condition field. -/
theorem condOf_encode (i : Instr) : condOf (encode i) = i.cond := by
  cases i with
  | andImm | eorImm | subImm | rsbImm | addImm | adcImm | sbcImm | rscImm | orrImm | movImm | bicImm | mvnImm
  | tstImm | teqImm | cmpImm | cmnImm => exact condOf_of_field (fields_of_dpImmWord rfl).1
  | andReg3 | eorReg3 | subReg3 | rsbReg3 | addReg3 | adcReg3 | sbcReg3 | rscReg3 | orrReg3 | movReg3 | bicReg3
  | mvnReg3 | tstReg3 | teqReg3 | cmpReg3 | cmnReg3 => exact condOf_of_field (fields_of_dpReg3Word rfl).1
  | andReg4 | eorReg4 | subReg4 | rsbReg4 | addReg4 | adcReg4 | sbcReg4 | rscReg4 | orrReg4 | movReg4 | bicReg4
  | mvnReg4 | tstReg4 | teqReg4 | cmpReg4 | cmnReg4 => exact condOf_of_field (fields_of_dpReg4Word rfl).1
  | mul | mla | umull | umlal | smull | smlal => exact condOf_of_field (fields_of_multiplyWord rfl).1
  | swp | swpb => exact condOf_of_field (fields_of_swapWord rfl).1
  | ldrhReg | ldrhImm | strhReg | strhImm | ldrsbReg | ldrsbImm | ldrshReg | ldrshImm =>
    exact condOf_of_field (fields_of_halfwordWord rfl).1
  | bx => exact condOf_of_field (fields_of_bxWord rfl).1
  | mrs => exact condOf_of_field (fields_of_mrsWord rfl).1
  | msrReg | msrRegFlags => exact condOf_of_field (fields_of_msrRegWord rfl).1
  | msrImmFlags => exact condOf_of_field (fields_of_msrImmWord rfl).1
  | ldrImm | strImm | ldrbImm | strbImm => exact condOf_of_field (fields_of_transferImmWord rfl).1
  | ldrReg | strReg | ldrbReg | strbReg => exact condOf_of_field (fields_of_transferRegWord rfl).1
  | ldm | stm | ldmS | stmS => exact condOf_of_field (fields_of_blockWord rfl).1
  | b c off => exact condOf_of_field (fields_of_branchWord (l := false) rfl).1
  | bl c off => exact condOf_of_field (fields_of_branchWord (l := true) rfl).1

/-- The decoder copies the condition field into the instruction. -/
theorem cond_of_decode {w : Word} {i : Instr} (h : decode w = .instr i) : i.cond = condOf w := by
  rw [← condOf_encode, encodeOfDecode w i h]

/-- After the fetch, a decoded word is run: its meaning tests the same condition (R183). -/
theorem step_of_decoded {s : State} {i : Instr} (hfetch : s.fetchFault = none) (hd : decode s.fetchWord = .instr i) :
    step s = exec i s := by
  cases hc : condPassed (condOf s.fetchWord) s.flags
  · rw [step_of_fetched_of_not_passed hfetch hc, exec_of_not_passed ((cond_of_decode hd).symm ▸ hc)]
  · simp only [step, cycle, hfetch, hc, hd, if_true]

/-- Settles O6: such a state fetches, and a decoded word is run. -/
theorem stepRunsDecodedInstruction : Obligations.StepRunsDecodedInstruction := by
  unfold Obligations.StepRunsDecodedInstruction
  intro s i hend hpc hd
  exact step_of_decoded (s.fetchFault_eq_none_iff.2 ⟨hend, hpc⟩) hd

/-- Settles O8: such a word is rejected by the decoder (O4). -/
theorem reservedWordFaults : Obligations.ReservedWordFaults := by
  unfold Obligations.ReservedWordFaults
  intro s hend hpc hc hw
  obtain ⟨why, hd⟩ := (reservedWordsAreThoseListed s.fetchWord).2 hw
  exact step_of_reserved (s.fetchFault_eq_none_iff.2 ⟨hend, hpc⟩) hc hd

/-- The three tests before the fetch, in the order of R183. -/
theorem State.fetchFault_eq_ite (s : State) :
    s.fetchFault =
      if s.pc = s.cfg.endPc then some .runEnded
      else if s.pc.toNat % 4 ≠ 0 then some (.fetchMisaligned s.pc)
      else if s.pc.toNat < s.cfg.memBase.toNat ∨ s.cfg.memBase.toNat + s.cfg.memSize < s.pc.toNat + 4 then
        some (.accessOutOfRange s.pc 4)
      else none := by
  have hrange : (s.pc.toNat < s.cfg.memBase.toNat ∨ s.cfg.memBase.toNat + s.cfg.memSize < s.pc.toNat + 4) ↔
      inMemory s.cfg s.pc 4 = false := by
    simp only [inMemory, Bool.and_eq_false_iff, decide_eq_false_iff_not, not_le]
  simp only [State.fetchFault, firstFault_cons, firstFault_nil, rangeFault, hrange]
  by_cases hend : s.pc = s.cfg.endPc <;> by_cases ha : s.pc.toNat % 4 = 0 <;> cases inMemory s.cfg s.pc 4 <;>
    simp [hend, ha, raiseIf]

/-- Settles O9: the first test that applies decides. -/
theorem stepStopsBeforeFetch : Obligations.StepStopsBeforeFetch := by
  unfold Obligations.StepStopsBeforeFetch
  intro s
  have hfetch := s.fetchFault_eq_ite
  refine ⟨fun hend => ?_, fun hend ha => ?_, fun hend ha hout => ?_⟩
  · rw [if_pos hend] at hfetch
    exact step_of_fetchFault hfetch
  · rw [if_neg hend, if_pos ha] at hfetch
    exact step_of_fetchFault hfetch
  · rw [if_neg hend, if_neg (not_not.2 ha), if_pos hout] at hfetch
    exact step_of_fetchFault hfetch

/-- What a step does, by R183: it stops before the fetch, is skipped, stops at a reserved word or runs an instruction. -/
theorem step_cases (s : State) :
    (∃ f, s.fetchFault = some f ∧ step s = .fault f) ∨
      (s.fetchFault = none ∧ condPassed (condOf s.fetchWord) s.flags = false ∧ step s = .next s.advance) ∨
      (s.fetchFault = none ∧ condPassed (condOf s.fetchWord) s.flags = true ∧
        ((∃ why, decode s.fetchWord = .reserved why ∧ step s = .fault (.reservedEncoding s.fetchWord)) ∨
          ∃ i, decode s.fetchWord = .instr i ∧ condPassed i.cond s.flags = true ∧ step s = exec i s)) := by
  cases hfetch : s.fetchFault with
  | some f => exact .inl ⟨f, rfl, step_of_fetchFault hfetch⟩
  | none =>
    cases hc : condPassed (condOf s.fetchWord) s.flags with
    | false => exact .inr (.inl ⟨rfl, rfl, step_of_fetched_of_not_passed hfetch hc⟩)
    | true =>
      refine .inr (.inr ⟨rfl, rfl, ?_⟩)
      cases hd : decode s.fetchWord with
      | reserved why => exact .inl ⟨why, rfl, step_of_reserved hfetch hc hd⟩
      | instr i => exact .inr ⟨i, rfl, (cond_of_decode hd).symm ▸ hc, step_of_decoded hfetch hd⟩

theorem stepFault_eq (s : State) :
    stepFault s =
      match s.fetchFault with
      | some f => some f
      | none =>
        if condPassed (condOf s.fetchWord) s.flags = false then none
        else
          match decode s.fetchWord with
          | .reserved _ => some (.reservedEncoding s.fetchWord)
          | .instr i => instrFault i s := by
  rw [s.fetchFault_eq_ite]
  unfold stepFault
  split <;> [rfl; split <;> [rfl; split <;> rfl]]

/-- Settles O28: in each case of the step the nine checks name the same outcome. -/
theorem orderOfChecks : Obligations.OrderOfChecks := by
  unfold Obligations.OrderOfChecks
  intro s
  rw [stepFault_eq]
  obtain ⟨f, hfetch, hstep⟩ | ⟨hfetch, hc, hstep⟩ | ⟨hfetch, hc, ⟨why, hd, hstep⟩ | ⟨i, hd, hci, hstep⟩⟩ := step_cases s
  · simp [hfetch, hstep]
  · simp [hfetch, hc, hstep]
  · simp [hfetch, hc, hd, hstep]
  · simp only [hfetch, hc, hd, hstep, exec_eq_fault_iff, hci, true_and, Bool.true_eq_false, if_false, implies_true]
    refine ⟨fun ⟨t, ht⟩ => ?_, exec_completes⟩
    obtain ⟨hc', -⟩ | ⟨-, hf, -⟩ := frame_of_exec_eq_next ht
    · rw [hci] at hc'; cases hc'
    · exact hf

/-! ### The invariant -/

theorem inv_advance {s : State} (h : s.Inv) : s.advance.Inv := h

/-- An instruction that completes keeps the invariant: the cells it adds lie in its accesses, which are inside memory. -/
theorem inv_of_exec {i : Instr} {s t : State} (h : s.Inv) (ht : exec i s = .next t) : t.Inv := by
  obtain ⟨-, rfl⟩ | ⟨-, hf, hframe⟩ := frame_of_exec_eq_next ht
  · exact inv_advance h
  obtain ⟨hlegal, hwf, hcells⟩ := h
  rw [State.Inv, hframe.cfg]
  refine ⟨hlegal, hframe.mem.wf hwf, fun c hc => ?_⟩
  obtain hold | ⟨-, x, hx, hle, hlt⟩ := hframe.mem.cells c hc
  · exact hcells c hold
  · obtain ⟨-, hbase, htop⟩ := allowed_of_instrFault_eq_none hf x hx
    exact ⟨hbase.trans hle, hlt.trans_le htop⟩

/-- Settles O16: a step that gives a next state skips an instruction or executes one. -/
theorem stepKeepsInvariant : Obligations.StepKeepsInvariant := by
  unfold Obligations.StepKeepsInvariant
  intro s t hinv ht
  obtain ⟨f, -, hstep⟩ | ⟨-, -, hstep⟩ | ⟨-, -, ⟨why, -, hstep⟩ | ⟨i, -, -, hstep⟩⟩ := step_cases s
  · rw [hstep] at ht; cases ht
  · rw [hstep] at ht; cases ht; exact inv_advance hinv
  · rw [hstep] at ht; cases ht
  · exact inv_of_exec hinv (hstep.symm.trans ht)

/-- Settles O15: the configuration is legal by evaluation, and the reset memory lists nothing. -/
theorem resetMeetsInvariant : Obligations.ResetMeetsInvariant := by
  unfold Obligations.ResetMeetsInvariant
  refine ⟨by decide, State.reset_mem_wf, fun c hc => ?_⟩
  cases hc

/-- Settles O14: the fields of the reset state. -/
theorem resetState : Obligations.ResetState := by
  unfold Obligations.ResetState
  refine ⟨rfl, fun r hr => ?_, rfl, fun a => rfl, rfl, rfl, rfl, rfl, rfl⟩
  rw [State.reg_of_ne hr]
  simp [State.reset, State.launch]

/-- Settles O13 by the laws of the register file. -/
theorem registerReadsAndWrites : Obligations.RegisterReadsAndWrites := by
  unfold Obligations.RegisterReadsAndWrites
  intro s r v
  refine ⟨s.reg_regPC, s.setReg_regPC v, fun hr => ⟨State.reg_setReg_self hr s v, State.setReg_pc_of_ne hr s v, ?_⟩,
    fun q hq => State.reg_setReg_ne hq hq s v, State.setReg_flags s r v, State.setReg_mem s r v,
    State.setReg_cfg s r v, State.setReg_mulDraws s r v⟩
  intro q hqr
  by_cases hq : q = regPC
  · rw [hq, State.reg_regPC, State.reg_regPC, State.setReg_pc_of_ne hr]
  · exact State.reg_setReg_ne hq hqr s v

end Sys2Proof.Machine
end

section
/-! Proof of the statement of 70_reset_and_hazards.md on draws (R356): what executes without a flag-setting multiply does
the same whatever number of draws was taken before. -/

namespace Sys2Proof.Machine

/-- The state with another number of draws taken. -/
def State.withDraws (s : State) (n : Nat) : State := { s with mulDraws := n }

/-- The outcome with another number of draws taken in its next state. -/
def withDrawsNext (n : Nat) : Result → Result
  | .next t => .next (t.withDraws n)
  | .fault f => .fault f
  | .refused r => .refused r

@[simp] theorem State.withDraws_flags (s : State) (n : Nat) : (s.withDraws n).flags = s.flags := rfl
@[simp] theorem State.withDraws_mem (s : State) (n : Nat) : (s.withDraws n).mem = s.mem := rfl
@[simp] theorem State.withDraws_cfg (s : State) (n : Nat) : (s.withDraws n).cfg = s.cfg := rfl
@[simp] theorem State.withDraws_pc (s : State) (n : Nat) : (s.withDraws n).pc = s.pc := rfl
@[simp] theorem State.reg_withDraws (s : State) (n : Nat) (r : Reg) : (s.withDraws n).reg r = s.reg r := rfl

/-! ### The updates and the number of draws do not touch each other -/

theorem State.withDraws_advance (s : State) (n : Nat) : (s.withDraws n).advance = s.advance.withDraws n := rfl

theorem State.withDraws_withFlags (s : State) (n : Nat) (f : Flags) :
    (s.withDraws n).withFlags f = (s.withFlags f).withDraws n := rfl

theorem State.withDraws_withMem (s : State) (n : Nat) (m : Memory) :
    (s.withDraws n).withMem m = (s.withMem m).withDraws n := rfl

theorem State.withDraws_setReg (s : State) (n : Nat) (r : Reg) (v : Word) :
    (s.withDraws n).setReg r v = (s.setReg r v).withDraws n := by
  unfold State.setReg
  split <;> rfl

theorem State.withDraws_updateBase (s : State) (n : Nat) (ix : Indexing) (rn : Reg) (v : Word) :
    (s.withDraws n).updateBase ix rn v = (s.updateBase ix rn v).withDraws n := by
  unfold State.updateBase
  split
  · exact s.withDraws_setReg n rn v
  · rfl

theorem State.withDraws_writeBack (s : State) (n : Nat) (ix : Indexing) (rn : Reg) (v : Word) :
    (s.withDraws n).writeBack ix rn v = (s.writeBack ix rn v).withDraws n := by
  unfold State.writeBack
  split
  · exact s.withDraws_setReg n rn v
  · rfl

theorem State.withDraws_loadRegs (m : Memory) (l : List Reg) (a : Word) (s : State) (n : Nat) :
    State.loadRegs m l a (s.withDraws n) = (State.loadRegs m l a s).withDraws n := by
  induction l generalizing a s with
  | nil => rfl
  | cons r rest ih => rw [State.loadRegs, s.withDraws_setReg, ih, State.loadRegs]

theorem State.withDraws_storeRegs (s : State) (n : Nat) (l : List Reg) (a : Word) (m : Memory) :
    (s.withDraws n).storeRegs l a m = s.storeRegs l a m := by
  induction l generalizing a m with
  | nil => rfl
  | cons r rest ih => rw [State.storeRegs, ih, State.reg_withDraws, State.storeRegs]

/-! ### The shared operations -/

theorem State.withDraws_execute (s : State) (n : Nat) (c : Cond) (l : List (Option Fault)) (t : State) :
    (s.withDraws n).execute c l (t.withDraws n) = withDrawsNext n (s.execute c l t) := by
  unfold State.execute
  rw [State.withDraws_flags]
  cases condPassed c s.flags with
  | false => rfl
  | true => cases firstFault l <;> rfl

theorem State.withDraws_stopWith (s : State) (n : Nat) (c : Cond) (f : Fault) :
    (s.withDraws n).stopWith c f = withDrawsNext n (s.stopWith c f) :=
  s.withDraws_execute n c [some f] s

theorem State.withDraws_dataProcess (s : State) (n : Nat) (c : Cond) (sf : Bool) (rd : Reg) (l : List (Option Fault))
    (r : AluResult) : (s.withDraws n).dataProcess c sf rd l r = withDrawsNext n (s.dataProcess c sf rd l r) := by
  simp only [State.dataProcess, ← State.withDraws_execute, ← State.withDraws_setReg, State.withDraws_advance,
    State.withDraws_withFlags, State.withDraws_flags]

theorem State.withDraws_compare (s : State) (n : Nat) (c : Cond) (l : List (Option Fault)) (r : AluResult) :
    (s.withDraws n).compare c l r = withDrawsNext n (s.compare c l r) :=
  s.withDraws_execute n c l (s.advance.withFlags r.flags)

theorem State.withDraws_mul32 (s : State) (n : Nat) (c : Cond) (o : Option Fault) (rd : Reg) (v : Word) :
    (s.withDraws n).mul32 c false o rd v = withDrawsNext n (s.mul32 c false o rd v) := by
  simp only [State.mul32, ← State.withDraws_execute, ← State.withDraws_setReg]
  rfl

theorem State.withDraws_mul64 (s : State) (n : Nat) (c : Cond) (rdHi rdLo rs rm : Reg) (p : BitVec 64) :
    (s.withDraws n).mul64 c false rdHi rdLo rs rm p = withDrawsNext n (s.mul64 c false rdHi rdLo rs rm p) := by
  simp only [State.mul64, ← State.withDraws_execute, ← State.withDraws_setReg]
  rfl

theorem State.withDraws_loadOp (s : State) (n : Nat) (c : Cond) (l : List (Option Fault)) (k : LoadKind) (ix : Indexing)
    (rn rd : Reg) (off : Word) :
    (s.withDraws n).loadOp c l k ix rn rd off = withDrawsNext n (s.loadOp c l k ix rn rd off) := by
  simp only [State.loadOp, ← State.withDraws_execute, ← State.withDraws_setReg, ← State.withDraws_updateBase]
  rfl

theorem State.withDraws_storeOp (s : State) (n : Nat) (c : Cond) (l : List (Option Fault)) (w : Width) (ix : Indexing)
    (rn rd : Reg) (off : Word) :
    (s.withDraws n).storeOp c l w ix rn rd off = withDrawsNext n (s.storeOp c l w ix rn rd off) := by
  simp only [State.storeOp, ← State.withDraws_execute, ← State.withDraws_withMem, ← State.withDraws_updateBase]
  rfl

theorem State.withDraws_swapOp (s : State) (n : Nat) (c : Cond) (l : List (Option Fault)) (k : LoadKind)
    (rn rd rm : Reg) : (s.withDraws n).swapOp c l k rn rd rm = withDrawsNext n (s.swapOp c l k rn rd rm) := by
  simp only [State.swapOp, ← State.withDraws_execute, ← State.withDraws_setReg]
  rfl

theorem State.withDraws_msrOp (s : State) (n : Nat) (c : Cond) (pd : Bool) (l : List (Option Fault)) (v : Word) :
    (s.withDraws n).msrOp c pd l v = withDrawsNext n (s.msrOp c pd l v) :=
  s.withDraws_execute n c _ (s.advance.withFlags (flagsOfPsr v))

theorem execMrs_withDraws (s : State) (n : Nat) (c : Cond) (ps : Bool) (rd : Reg) :
    execMrs c ps rd (s.withDraws n) = withDrawsNext n (execMrs c ps rd s) := by
  simp only [execMrs, ← State.withDraws_execute, ← State.withDraws_setReg]
  rfl

theorem execLdm_withDraws (s : State) (n : Nat) (c : Cond) (ix : Indexing) (rn : Reg) (list : BitVec 16) :
    execLdm c ix rn list (s.withDraws n) = withDrawsNext n (execLdm c ix rn list s) := by
  simp only [execLdm, ← State.withDraws_execute, ← State.withDraws_loadRegs, ← State.withDraws_writeBack]
  rfl

theorem execStm_withDraws (s : State) (n : Nat) (c : Cond) (ix : Indexing) (rn : Reg) (list : BitVec 16) :
    execStm c ix rn list (s.withDraws n) = withDrawsNext n (execStm c ix rn list s) := by
  simp only [execStm, ← State.withDraws_execute, ← State.withDraws_withMem, ← State.withDraws_writeBack,
    State.withDraws_storeRegs]
  rfl

theorem execBranch_withDraws (s : State) (n : Nat) (c : Cond) (v : Word) :
    (s.withDraws n).execute c [] ((s.withDraws n).setReg regPC v) =
      withDrawsNext n (s.execute c [] (s.setReg regPC v)) := by
  rw [State.withDraws_setReg, State.withDraws_execute]

theorem execBl_withDraws (s : State) (n : Nat) (c : Cond) (off : BitVec 24) :
    execBl c off (s.withDraws n) = withDrawsNext n (execBl c off s) := by
  simp only [execBl, ← State.withDraws_execute, ← State.withDraws_setReg]
  rfl

/-- No meaning but that of a flag-setting multiply reads or changes the number of draws. -/
theorem exec_withDraws {i : Instr} (hi : i.drawsCarry = false) (s : State) (n : Nat) :
    exec i (s.withDraws n) = withDrawsNext n (exec i s) := by
  cases i with
  | mul c sf rd rn rs rm | mla c sf rd rn rs rm =>
    obtain rfl : sf = false := hi
    exact s.withDraws_mul32 n c _ rd _
  | umull c sf rdHi rdLo rs rm | umlal c sf rdHi rdLo rs rm | smull c sf rdHi rdLo rs rm | smlal c sf rdHi rdLo rs rm =>
    obtain rfl : sf = false := hi
    exact s.withDraws_mul64 n c rdHi rdLo rs rm _
  | tstImm c | teqImm c | cmpImm c | cmnImm c => exact s.withDraws_compare n c [] _
  | tstReg3 c | tstReg4 c | teqReg3 c | teqReg4 c | cmpReg3 c | cmpReg4 c | cmnReg3 c | cmnReg4 c =>
    exact s.withDraws_compare n c _ _
  | swp c rn rd rm | swpb c rn rd rm => exact s.withDraws_swapOp n c _ _ rn rd rm
  | ldrhReg c ix rn rd | ldrhImm c ix rn rd | ldrsbReg c ix rn rd | ldrsbImm c ix rn rd | ldrshReg c ix rn rd
  | ldrshImm c ix rn rd | ldrImm c ix rn rd | ldrReg c ix rn rd | ldrbImm c ix rn rd | ldrbReg c ix rn rd =>
    exact s.withDraws_loadOp n c _ _ ix rn rd _
  | strhReg c ix rn rd | strhImm c ix rn rd | strImm c ix rn rd | strReg c ix rn rd | strbImm c ix rn rd
  | strbReg c ix rn rd => exact s.withDraws_storeOp n c _ _ ix rn rd _
  | bx c rn => exact execBranch_withDraws s n c _
  | b c off => exact execBranch_withDraws s n c _
  | bl c off => exact execBl_withDraws s n c off
  | mrs c ps rd => exact execMrs_withDraws s n c ps rd
  | msrReg c pd | msrRegFlags c pd | msrImmFlags c pd => exact s.withDraws_msrOp n c pd _ _
  | ldm c ix rn list => exact execLdm_withDraws s n c ix rn list
  | stm c ix rn list => exact execStm_withDraws s n c ix rn list
  | ldmS c | stmS c => exact s.withDraws_stopWith n c _
  | andImm c sf rn rd | andReg3 c sf rn rd | andReg4 c sf rn rd | eorImm c sf rn rd | eorReg3 c sf rn rd
  | eorReg4 c sf rn rd | subImm c sf rn rd | subReg3 c sf rn rd | subReg4 c sf rn rd | rsbImm c sf rn rd
  | rsbReg3 c sf rn rd | rsbReg4 c sf rn rd | addImm c sf rn rd | addReg3 c sf rn rd | addReg4 c sf rn rd
  | adcImm c sf rn rd | adcReg3 c sf rn rd | adcReg4 c sf rn rd | sbcImm c sf rn rd | sbcReg3 c sf rn rd
  | sbcReg4 c sf rn rd | rscImm c sf rn rd | rscReg3 c sf rn rd | rscReg4 c sf rn rd | orrImm c sf rn rd
  | orrReg3 c sf rn rd | orrReg4 c sf rn rd | movImm c sf rn rd | movReg3 c sf rn rd | movReg4 c sf rn rd
  | bicImm c sf rn rd | bicReg3 c sf rn rd | bicReg4 c sf rn rd | mvnImm c sf rn rd | mvnReg3 c sf rn rd
  | mvnReg4 c sf rn rd => exact s.withDraws_dataProcess n c sf rd _ _

/-- A step does the same in two states that differ in the number of draws alone. -/
theorem step_withDraws {s : State} (hs : ∀ i, decode s.fetchWord = .instr i → i.drawsCarry = false) (n : Nat) :
    step (s.withDraws n) = withDrawsNext n (step s) := by
  have hfetchWord : (s.withDraws n).fetchWord = s.fetchWord := rfl
  have hfetchFault : (s.withDraws n).fetchFault = s.fetchFault := rfl
  obtain ⟨f, hfetch, hstep⟩ | ⟨hfetch, hc, hstep⟩ | ⟨hfetch, hc, ⟨why, hd, hstep⟩ | ⟨i, hd, -, hstep⟩⟩ := step_cases s
  · rw [hstep, step_of_fetchFault (hfetchFault.trans hfetch)]
    rfl
  · rw [hstep, step_of_fetched_of_not_passed (hfetchFault.trans hfetch) hc]
    rfl
  · rw [hstep, step_of_reserved (hfetchFault.trans hfetch) hc hd]
    rfl
  · rw [hstep, step_of_decoded (hfetchFault.trans hfetch) hd, exec_withDraws (hs i hd)]

/-- Settles O18: a next state differs in the number of draws alone, a fault not at all. -/
theorem stepIgnoresDraws : Obligations.StepIgnoresDraws := by
  unfold Obligations.StepIgnoresDraws
  intro s n hs
  have hstep := step_withDraws hs n
  exact ⟨fun t ht => hstep.trans (congrArg (withDrawsNext n) ht), fun f hf => hstep.trans (congrArg (withDrawsNext n) hf)⟩

end Sys2Proof.Machine
end

section
/-! Proofs of the family 40_data_processing.md: the shifter for an immediate amount (R121), the sixteen instructions in
their three forms (R127 to R146), and what the conditions say after a compare (41_conditional_execution.md R181). -/

namespace Sys2Proof.Machine

open Claims

/-! ### The shifter for an immediate amount (R121), a lemma per row -/

theorem shiftImm_lsl (v : Word) {n : BitVec 5} (cin : Bool) (h : n ≠ 0#5) :
    shiftImm v .lsl n cin = ⟨BitVec.ofNat 32 (v.toNat * 2 ^ n.toNat), v.getLsbD (32 - n.toNat)⟩ := by
  simp only [shiftImm, if_neg h, shiftLeft_eq_ofNat]

theorem shiftImm_lsr (v : Word) {n : BitVec 5} (cin : Bool) (h : n ≠ 0#5) :
    shiftImm v .lsr n cin = ⟨BitVec.ofNat 32 (v.toNat / 2 ^ n.toNat), v.getLsbD (n.toNat - 1)⟩ := by
  simp only [shiftImm, if_neg h, ushiftRight_eq_ofNat]

theorem shiftImm_asr (v : Word) {n : BitVec 5} (cin : Bool) (h : n ≠ 0#5) :
    shiftImm v .asr n cin = ⟨BitVec.ofInt 32 (v.toInt / 2 ^ n.toNat), v.getLsbD (n.toNat - 1)⟩ := by
  simp only [shiftImm, if_neg h, sshiftRight_eq_ofInt]

theorem shiftImm_ror (v : Word) {n : BitVec 5} (cin : Bool) (h : n ≠ 0#5) :
    shiftImm v .ror n cin =
      ⟨BitVec.ofNat 32 (v.toNat / 2 ^ n.toNat + v.toNat % 2 ^ n.toNat * 2 ^ (32 - n.toNat)),
        v.getLsbD (n.toNat - 1)⟩ := by
  have hn : n.toNat < 32 := n.isLt
  simp only [shiftImm, if_neg h, rotateRight_eq_ofNat v hn]

/-- RRX: the old C goes in at the top, bit 0 goes out. -/
theorem shiftImm_rrx (v : Word) (cin : Bool) :
    shiftImm v .ror 0#5 cin = ⟨BitVec.ofNat 32 (cin.toNat * 2 ^ 31 + v.toNat / 2), v.getLsbD 0⟩ := by
  have hvalue : BitVec.ofBool cin ++ v.extractLsb' 1 31 = BitVec.ofNat 32 (cin.toNat * 2 ^ 31 + v.toNat / 2) := by
    apply BitVec.eq_of_toNat_eq
    rw [toNat_append_eq_add, BitVec.extractLsb'_toNat, BitVec.toNat_ofBool, BitVec.toNat_ofNat,
      Nat.shiftRight_eq_div_pow]
    have hv := v.isLt
    have hc : cin.toNat ≤ 1 := cin.toNat_le
    omega
  exact congrArg (Shifted.mk · _) hvalue

/-- Settles O31: operand 2 and the register offset are the shifter by definition; each clause is a row of R121. -/
theorem shiftByImmediate : Obligations.ShiftByImmediate := by
  unfold Obligations.ShiftByImmediate
  refine ⟨fun s o => ⟨rfl, rfl⟩, fun v n cin => ⟨rfl, rfl, rfl, shiftImm_rrx v cin, fun h => ?_⟩⟩
  exact ⟨shiftImm_lsl v cin h, shiftImm_lsr v cin h, shiftImm_asr v cin h, shiftImm_ror v cin h⟩

/-! ### Results and flags in arithmetic (R124 to R126) -/

theorem msb_eq_getLsbD (v : Word) : v.msb = v.getLsbD 31 := BitVec.msb_eq_getLsbD_last v

theorem beq_zero_eq_decide (v : Word) : (v == 0#32) = decide (v.toNat = 0) := by
  rw [Bool.eq_iff_iff, beq_iff_eq, decide_eq_true_iff, BitVec.toNat_eq]
  rfl

theorem logicalResult_eq_logical (f : Flags) (v : Word) (o : Shifted) : logicalResult f v o.carry = logical f v o := by
  rw [logicalResult, logical, msb_eq_getLsbD, beq_zero_eq_decide]

/-- The signed reading and the sign of a word, from its number. -/
theorem toInt_eq_toNat_sub (v : Word) : v.toInt = v.toNat - (if v.msb then 2 ^ 32 else 0) := by
  rw [BitVec.toInt_eq_msb_cond]
  split <;> simp

/-- Signed overflow: the operands have one sign and the result has the other exactly when the signed sum is no signed
32-bit number. -/
theorem overflow_eq_not_fitsSigned (a b : Word) (cin : Bool) :
    (a.msb == b.msb && (BitVec.ofNat 32 (a.toNat + b.toNat + cin.toNat)).msb != a.msb) =
      !fitsSigned (a.toInt + b.toInt + cin.toNat) := by
  have ha := a.isLt
  have hb := b.isLt
  have hc : cin.toNat ≤ 1 := cin.toNat_le
  rw [fitsSigned, toInt_eq_toNat_sub a, toInt_eq_toNat_sub b, BitVec.msb_eq_decide a, BitVec.msb_eq_decide b,
    BitVec.msb_eq_decide, BitVec.toNat_ofNat, Bool.eq_iff_iff]
  by_cases h1 : 2 ^ 31 ≤ a.toNat <;> by_cases h2 : 2 ^ 31 ≤ b.toNat <;>
    simp only [h1, h2, decide_true, decide_false, if_true, if_false, Bool.and_eq_true, beq_iff_eq,
      bne_iff_ne, ne_eq, Bool.not_eq_true', decide_eq_true_iff, decide_eq_false_iff_not, Bool.false_eq_true, Bool.true_eq_false, true_and,
      false_and, false_iff] <;>
    omega

theorem arithmeticResult_eq_sum (a b : Word) (cin : Bool) :
    arithmeticResult (addWithCarry a b cin) = sum a b cin.toNat := by
  simp only [arithmeticResult, addWithCarry, sum, msb_eq_getLsbD, beq_zero_eq_decide]
  rw [← overflow_eq_not_fitsSigned]
  simp only [msb_eq_getLsbD]

theorem toNat_not (b : Word) : (~~~b).toNat = 2 ^ 32 - 1 - b.toNat := BitVec.toNat_not

theorem toInt_not (b : Word) : (~~~b).toInt = -1 - b.toInt := by
  have hb := b.isLt
  rw [toInt_eq_toNat_sub, toInt_eq_toNat_sub b, toNat_not, msb_eq_getLsbD, msb_eq_getLsbD, BitVec.getLsbD_not]
  cases b.getLsbD 31 <;> simp <;> omega

/-- A subtraction adds the complement: the carry in is the borrow's complement (R135 to R138). -/
theorem sum_not_eq_difference (a b : Word) (cin : Bool) :
    sum a (~~~b) cin.toNat = difference a b (if cin then 0 else 1) := by
  have ha := a.isLt
  have hb := b.isLt
  have hvalue : BitVec.ofNat 32 (a.toNat + (~~~b).toNat + cin.toNat) =
      BitVec.ofInt 32 ((a.toNat : Int) - b.toNat - (if cin then 0 else 1 : Nat)) := by
    apply BitVec.eq_of_toNat_eq
    rw [toNat_not, BitVec.toNat_ofNat, BitVec.toNat_ofInt]
    cases cin <;> simp only [Bool.toNat_false, Bool.toNat_true, if_true, if_false, Bool.false_eq_true] <;> omega
  have hcarry : decide (2 ^ 32 ≤ a.toNat + (~~~b).toNat + cin.toNat) =
      decide (b.toNat + (if cin then 0 else 1 : Nat) ≤ a.toNat) := by
    rw [toNat_not]
    cases cin <;> simp only [Bool.toNat_false, Bool.toNat_true, if_true, if_false, Bool.false_eq_true,
      decide_eq_decide] <;> omega
  have hsigned : a.toInt + (~~~b).toInt + cin.toNat = a.toInt - b.toInt - (if cin then 0 else 1 : Nat) := by
    rw [toInt_not]
    cases cin <;> simp only [Bool.toNat_false, Bool.toNat_true, if_true, if_false, Bool.false_eq_true] <;> omega
  simp only [sum, difference, hvalue, hcarry, hsigned]

/-! ### The skeletons -/

/-- An instruction that writes Rd completes with its value, its flags and the frame (R127). -/
theorem State.dataProcess_wrote {s : State} {c : Cond} {sf : Bool} {rd : Reg} {l : List (Option Fault)}
    (hc : condPassed c s.flags = true) (hl : firstFault l = none) (hpc : ¬(sf = true ∧ rd = regPC)) (r : AluResult) :
    ∃ t, s.dataProcess c sf rd l r = .next t ∧ Wrote s t rd r.value (if sf then r.flags else s.flags) := by
  refine ⟨_, (State.dataProcess_eq_next_iff ..).2 (.inr ⟨hc, ⟨hl, hpc⟩, rfl⟩), ?_, fun hr => ?_, fun q hq hne => ?_,
    ?_, fun a => ?_, ?_, ?_⟩
  · rw [State.setReg_pc_eq]; rfl
  · exact State.reg_setReg_self hr _ _
  · rw [State.reg_setReg_ne hq hne, State.reg_withFlags, State.reg_advance hq]
  · rw [State.setReg_flags]; rfl
  · rw [State.setReg_mem]; rfl
  · rw [State.setReg_cfg]; rfl
  · rw [State.setReg_mulDraws]; rfl

/-- A compare completes with its flags and the frame (R127, R129). -/
theorem State.compare_wroteFlags {s : State} {c : Cond} {l : List (Option Fault)}
    (hc : condPassed c s.flags = true) (hl : firstFault l = none) (r : AluResult) :
    ∃ t, s.compare c l r = .next t ∧ WroteFlags s t r.flags :=
  ⟨_, (State.compare_eq_next_iff ..).2 (.inr ⟨hc, hl, rfl⟩), rfl, fun _ hr => State.reg_advance hr s, rfl, fun _ => rfl,
    rfl, rfl⟩

theorem firstFault_rrxCheck {c : Config} {o : ShiftedReg} (h : o.isRrx = true → c.admitRrx = true) :
    firstFault [rrxCheck c o] = none := by
  rw [rrxCheck_eq]
  cases ho : o.isRrx
  · rfl
  · rw [h ho]; rfl

/-- The registers a form reg4 reads; MOV and MVN ignore Rn (log 12). -/
def reg4Sources (usesRn : Bool) (rn : Reg) (o : RegShiftedReg) : List Reg :=
  if usesRn then [rn, o.rm, o.rs] else [o.rm, o.rs]

theorem firstFault_reg4Check {usesRn : Bool} {rn : Reg} {o : RegShiftedReg} (hrn : usesRn = true → rn ≠ regPC)
    (hrm : o.rm ≠ regPC) (hrs : o.rs ≠ regPC) : firstFault [reg4Check (reg4Sources usesRn rn o)] = none := by
  rw [reg4Check_eq]
  cases usesRn
  · simp [reg4Sources, noPc, hrm, hrs]
  · simp [reg4Sources, noPc, hrm, hrs, hrn rfl]

/-- The three forms of an instruction that writes Rd, from its operation: the forms differ in operand 2 and its check. -/
theorem threeForms_of_alu {imm : Cond → Bool → Reg → Reg → RotImm → Instr}
    {reg3 : Cond → Bool → Reg → Reg → ShiftedReg → Instr} {reg4 : Cond → Bool → Reg → Reg → RegShiftedReg → Instr}
    {usesRn : Bool} {alu result : Flags → Word → Shifted → AluResult}
    (himm : ∀ c sf rn rd o s, exec (imm c sf rn rd o) s =
      s.dataProcess c sf rd [] (alu s.flags (s.reg rn) (s.op2Imm o)))
    (hreg3 : ∀ c sf rn rd o s, exec (reg3 c sf rn rd o) s =
      s.dataProcess c sf rd [rrxCheck s.cfg o] (alu s.flags (s.reg rn) (s.op2Reg3 o)))
    (hreg4 : ∀ c sf rn rd o s, exec (reg4 c sf rn rd o) s =
      s.dataProcess c sf rd [reg4Check (reg4Sources usesRn rn o)] (alu s.flags (s.reg rn) (s.op2Reg4 o)))
    (halu : ∀ f a o, alu f a o = result f a o) : ThreeForms imm reg3 reg4 usesRn result := by
  intro s c sf rn rd hc hpc
  simp only [← halu, himm, hreg3, hreg4]
  refine ⟨fun o => ?_, fun o ho => ?_, fun o hrn hrm hrs => ?_⟩
  · exact State.dataProcess_wrote hc rfl hpc _
  · exact State.dataProcess_wrote hc (firstFault_rrxCheck ho) hpc _
  · exact State.dataProcess_wrote hc (firstFault_reg4Check hrn hrm hrs) hpc _

/-- The three forms of a compare, from its operation. -/
theorem compareForms_of_alu {imm : Cond → Reg → Reg → RotImm → Instr} {reg3 : Cond → Reg → Reg → ShiftedReg → Instr}
    {reg4 : Cond → Reg → Reg → RegShiftedReg → Instr} {alu result : Flags → Word → Shifted → AluResult}
    (himm : ∀ c rn rd o s, exec (imm c rn rd o) s = s.compare c [] (alu s.flags (s.reg rn) (s.op2Imm o)))
    (hreg3 : ∀ c rn rd o s, exec (reg3 c rn rd o) s =
      s.compare c [rrxCheck s.cfg o] (alu s.flags (s.reg rn) (s.op2Reg3 o)))
    (hreg4 : ∀ c rn rd o s, exec (reg4 c rn rd o) s =
      s.compare c [reg4Check (reg4Sources true rn o)] (alu s.flags (s.reg rn) (s.op2Reg4 o)))
    (halu : ∀ f a o, alu f a o = result f a o) : CompareForms imm reg3 reg4 result := by
  intro s c rn rd hc
  simp only [← halu, himm, hreg3, hreg4]
  refine ⟨fun o => ?_, fun o ho => ?_, fun o hrn hrm hrs => ?_⟩
  · exact State.compare_wroteFlags hc rfl _
  · exact State.compare_wroteFlags hc (firstFault_rrxCheck ho) _
  · exact State.compare_wroteFlags hc (firstFault_reg4Check (fun _ => hrn) hrm hrs) _

/-! ### The sixteen operations in arithmetic -/

theorem not_eq_ofNat (b : Word) : ~~~b = BitVec.ofNat 32 (2 ^ 32 - 1 - b.toNat) := by
  rw [← toNat_not, BitVec.ofNat_toNat, BitVec.setWidth_eq]

theorem aluSub_eq_difference (f : Flags) (a : Word) (o : Shifted) : aluSub f a o = difference a o.value 0 :=
  (arithmeticResult_eq_sum _ _ true).trans (sum_not_eq_difference a o.value true)

theorem aluRsb_eq_difference (f : Flags) (a : Word) (o : Shifted) : aluRsb f a o = difference o.value a 0 :=
  (arithmeticResult_eq_sum _ _ true).trans (sum_not_eq_difference o.value a true)

theorem aluSbc_eq_difference (f : Flags) (a : Word) (o : Shifted) : aluSbc f a o = difference a o.value (borrowOf f) :=
  (arithmeticResult_eq_sum _ _ f.c).trans (sum_not_eq_difference a o.value f.c)

theorem aluRsc_eq_difference (f : Flags) (a : Word) (o : Shifted) : aluRsc f a o = difference o.value a (borrowOf f) :=
  (arithmeticResult_eq_sum _ _ f.c).trans (sum_not_eq_difference o.value a f.c)

theorem aluAdd_eq_sum (f : Flags) (a : Word) (o : Shifted) : aluAdd f a o = sum a o.value 0 :=
  arithmeticResult_eq_sum a o.value false

theorem aluAdc_eq_sum (f : Flags) (a : Word) (o : Shifted) : aluAdc f a o = sum a o.value (if f.c then 1 else 0) := by
  rw [aluAdc, arithmeticResult_eq_sum]
  cases f.c <;> rfl

/-- Settles O34: each form is the skeleton over its operation, and the flags are those of the logical group. -/
theorem bitwiseResults : Obligations.BitwiseResults := by
  unfold Obligations.BitwiseResults
  refine ⟨?_, ?_, ?_, ?_⟩
  · exact threeForms_of_alu (alu := aluAnd) (fun _ _ _ _ _ _ => rfl) (fun _ _ _ _ _ _ => rfl) (fun _ _ _ _ _ _ => rfl)
      fun f a o => logicalResult_eq_logical f _ o
  · exact threeForms_of_alu (alu := aluEor) (fun _ _ _ _ _ _ => rfl) (fun _ _ _ _ _ _ => rfl) (fun _ _ _ _ _ _ => rfl)
      fun f a o => logicalResult_eq_logical f _ o
  · exact threeForms_of_alu (alu := aluOrr) (fun _ _ _ _ _ _ => rfl) (fun _ _ _ _ _ _ => rfl) (fun _ _ _ _ _ _ => rfl)
      fun f a o => logicalResult_eq_logical f _ o
  · exact threeForms_of_alu (alu := aluBic) (fun _ _ _ _ _ _ => rfl) (fun _ _ _ _ _ _ => rfl) (fun _ _ _ _ _ _ => rfl)
      fun f a o => logicalResult_eq_logical f _ o

/-- Settles O35: the operation does not read Rn. -/
theorem moveResults : Obligations.MoveResults := by
  unfold Obligations.MoveResults
  refine ⟨?_, ?_⟩
  · exact threeForms_of_alu (alu := fun f _ o => aluMov f o) (fun _ _ _ _ _ _ => rfl) (fun _ _ _ _ _ _ => rfl)
      (fun _ _ _ _ _ _ => rfl) fun f _ o => logicalResult_eq_logical f _ o
  · exact threeForms_of_alu (alu := fun f _ o => aluMvn f o) (fun _ _ _ _ _ _ => rfl) (fun _ _ _ _ _ _ => rfl)
      (fun _ _ _ _ _ _ => rfl) fun f _ o => (logicalResult_eq_logical f _ o).trans (by rw [not_eq_ofNat])

/-- Settles O36. -/
theorem addResults : Obligations.AddResults := by
  unfold Obligations.AddResults
  exact ⟨threeForms_of_alu (fun _ _ _ _ _ _ => rfl) (fun _ _ _ _ _ _ => rfl) (fun _ _ _ _ _ _ => rfl) aluAdd_eq_sum,
    threeForms_of_alu (fun _ _ _ _ _ _ => rfl) (fun _ _ _ _ _ _ => rfl) (fun _ _ _ _ _ _ => rfl) aluAdc_eq_sum⟩

/-- Settles O37: a subtraction without a borrow. -/
theorem subtractResults : Obligations.SubtractResults := by
  unfold Obligations.SubtractResults
  exact ⟨threeForms_of_alu (fun _ _ _ _ _ _ => rfl) (fun _ _ _ _ _ _ => rfl) (fun _ _ _ _ _ _ => rfl)
      aluSub_eq_difference,
    threeForms_of_alu (fun _ _ _ _ _ _ => rfl) (fun _ _ _ _ _ _ => rfl) (fun _ _ _ _ _ _ => rfl)
      aluRsb_eq_difference⟩

/-- Settles O38: the borrow is C's complement. -/
theorem subtractWithCarryResults : Obligations.SubtractWithCarryResults := by
  unfold Obligations.SubtractWithCarryResults
  exact ⟨threeForms_of_alu (fun _ _ _ _ _ _ => rfl) (fun _ _ _ _ _ _ => rfl) (fun _ _ _ _ _ _ => rfl)
      aluSbc_eq_difference,
    threeForms_of_alu (fun _ _ _ _ _ _ => rfl) (fun _ _ _ _ _ _ => rfl) (fun _ _ _ _ _ _ => rfl)
      aluRsc_eq_difference⟩

/-- Settles O39. -/
theorem testResults : Obligations.TestResults := by
  unfold Obligations.TestResults
  exact ⟨compareForms_of_alu (alu := aluTst) (fun _ _ _ _ _ => rfl) (fun _ _ _ _ _ => rfl) (fun _ _ _ _ _ => rfl)
      fun f a o => logicalResult_eq_logical f _ o,
    compareForms_of_alu (alu := aluTeq) (fun _ _ _ _ _ => rfl) (fun _ _ _ _ _ => rfl) (fun _ _ _ _ _ => rfl)
      fun f a o => logicalResult_eq_logical f _ o⟩

/-- Settles O40: CMP is the operation of SUB and CMN that of ADD. -/
theorem compareResults : Obligations.CompareResults := by
  unfold Obligations.CompareResults
  exact ⟨compareForms_of_alu (alu := aluCmp) (fun _ _ _ _ _ => rfl) (fun _ _ _ _ _ => rfl) (fun _ _ _ _ _ => rfl)
      aluSub_eq_difference,
    compareForms_of_alu (alu := aluCmn) (fun _ _ _ _ _ => rfl) (fun _ _ _ _ _ => rfl) (fun _ _ _ _ _ => rfl)
      aluAdd_eq_sum⟩

/-! ### The conditions after a compare (41_conditional_execution.md R181) -/

/-- The flags of a difference of two words. -/
def differenceFlags (a b : Word) : Flags := (difference a b 0).flags

theorem differenceFlags_z (a b : Word) : (differenceFlags a b).z = true ↔ a = b := by
  have ha := a.isLt
  have hb := b.isLt
  simp only [differenceFlags, difference, decide_eq_true_iff, BitVec.toNat_ofInt, BitVec.toNat_eq]
  omega

theorem differenceFlags_c (a b : Word) : (differenceFlags a b).c = true ↔ b.toNat ≤ a.toNat := by
  simp only [differenceFlags, difference, decide_eq_true_iff, Nat.add_zero]

theorem differenceFlags_n (a b : Word) : (differenceFlags a b).n = (a - b).getLsbD 31 := by
  have hvalue : BitVec.ofInt 32 ((a.toNat : Int) - b.toNat - (0 : Nat)) = a - b := by
    apply BitVec.eq_of_toNat_eq
    have ha := a.isLt
    have hb := b.isLt
    rw [BitVec.toNat_ofInt, BitVec.toNat_sub]
    omega
  simp only [differenceFlags, difference, hvalue]

theorem differenceFlags_v (a b : Word) : (differenceFlags a b).v = !fitsSigned (a.toInt - b.toInt) := by
  simp only [differenceFlags, difference, Nat.cast_zero, sub_zero]

/-- The sign of the difference is right exactly when it did not overflow. -/
theorem differenceFlags_n_eq_v (a b : Word) :
    (differenceFlags a b).n = (differenceFlags a b).v ↔ b.toInt ≤ a.toInt := by
  have ha := a.isLt
  have hb := b.isLt
  rw [differenceFlags_n, differenceFlags_v, ← msb_eq_getLsbD, BitVec.msb_eq_decide, BitVec.toNat_sub, fitsSigned,
    toInt_eq_toNat_sub a, toInt_eq_toNat_sub b, BitVec.msb_eq_decide a, BitVec.msb_eq_decide b, Bool.eq_iff_iff]
  by_cases h1 : 2 ^ 31 ≤ a.toNat <;> by_cases h2 : 2 ^ 31 ≤ b.toNat <;>
    simp only [h1, h2, decide_true, decide_false, if_true, if_false, Bool.not_eq_true', decide_eq_true_iff,
      decide_eq_false_iff_not, Bool.false_eq_true] <;>
    omega

/-- A CMP and a SUBS that execute leave the flags of the difference of Rn and operand 2. -/
theorem flags_of_compare_or_subtract {s t : State} {c : Cond} {rn rd : Reg} {o : ShiftedReg}
    (hc : condPassed c s.flags = true)
    (h : exec (.cmpReg3 c rn rd o) s = .next t ∨ exec (.subReg3 c true rn rd o) s = .next t) :
    t.flags = differenceFlags (s.reg rn) (s.op2Reg3 o).value := by
  obtain h | h := h
  · have h : s.compare c [rrxCheck s.cfg o] (aluCmp s.flags (s.reg rn) (s.op2Reg3 o)) = .next t := h
    rw [State.compare_eq_next_iff] at h
    obtain ⟨hc', -⟩ | ⟨-, -, rfl⟩ := h
    · rw [hc] at hc'; cases hc'
    · exact congrArg AluResult.flags (aluSub_eq_difference s.flags _ _)
  · have h : s.dataProcess c true rd [rrxCheck s.cfg o] (aluSub s.flags (s.reg rn) (s.op2Reg3 o)) = .next t := h
    rw [State.dataProcess_eq_next_iff] at h
    obtain ⟨hc', -⟩ | ⟨-, -, rfl⟩ := h
    · rw [hc] at hc'; cases hc'
    · rw [State.setReg_flags]
      exact congrArg AluResult.flags (aluSub_eq_difference s.flags _ _)

/-- Settles O30: each condition reads flags whose meaning for a difference is known. -/
theorem conditionsAfterCompare : Obligations.ConditionsAfterCompare := by
  unfold Obligations.ConditionsAfterCompare
  intro s t c rn rd o hc h a b
  have hflags : t.flags = differenceFlags a b := flags_of_compare_or_subtract hc h
  have hz : t.flags.z = true ↔ a = b := hflags ▸ differenceFlags_z a b
  have hcarry : t.flags.c = true ↔ b.toNat ≤ a.toNat := hflags ▸ differenceFlags_c a b
  have hn : t.flags.n = (a - b).getLsbD 31 := hflags ▸ differenceFlags_n a b
  have hv : t.flags.v = !fitsSigned (a.toInt - b.toInt) := hflags ▸ differenceFlags_v a b
  have hnv : t.flags.n = t.flags.v ↔ b.toInt ≤ a.toInt := hflags ▸ differenceFlags_n_eq_v a b
  have hzfalse : t.flags.z = false ↔ a ≠ b := by rw [← Bool.not_eq_true, hz]
  have hcfalse : t.flags.c = false ↔ a.toNat < b.toNat := by rw [← Bool.not_eq_true, hcarry, not_le]
  have hnat : a = b ↔ a.toNat = b.toNat := BitVec.toNat_eq
  have hint : a = b ↔ a.toInt = b.toInt := BitVec.toInt_inj.symm
  refine ⟨hz, ?ne, hcarry, ?cc, ?hi, ?ls, ?ge, ?lt, ?gt, ?le, ?mi, ?pl, ?vs, ?vc⟩
  case ne => rw [← hzfalse]; exact iff_of_eq (Bool.not_eq_true' _)
  case cc => rw [← hcfalse]; exact iff_of_eq (Bool.not_eq_true' _)
  case hi => rw [condPassed_hi_iff, hcarry, hzfalse, ne_eq, hnat]; omega
  case ls => rw [condPassed_ls_iff, hcfalse, hz, hnat]; omega
  case ge => rw [condPassed_ge_iff, hnv]
  case lt => rw [condPassed_lt_iff, ne_eq, hnv, not_le]
  case gt => rw [condPassed_gt_iff, hzfalse, hnv, ne_eq, hint]; omega
  case le => rw [condPassed_le_iff, hz, ne_eq, hnv, hint]; omega
  case mi => rw [← hn]; rfl
  case pl => rw [← hn]; exact iff_of_eq (Bool.not_eq_true' _)
  case vs => rw [← Bool.not_eq_true', ← hv]; rfl
  case vc =>
    have hvc : condPassed .vc t.flags = !t.flags.v := rfl
    rw [hvc, hv, Bool.not_not]

end Sys2Proof.Machine
end

section
/-! Proofs of the family 43_multiply.md: the multiplies with a 32-bit and with a 64-bit result. -/

namespace Sys2Proof.Machine

open Claims

/-! ### Products of words as integers modulo 2^w -/

/-- The signed and the unsigned reading are one number modulo 2^w. -/
theorem toInt_emod_two_pow {w : Nat} (x : BitVec w) : x.toInt % 2 ^ w = x.toNat := by
  have hpow : ((2 : Int) ^ w) = ((2 ^ w : Nat) : Int) := by push_cast; rfl
  rw [BitVec.toInt_eq_toNat_bmod, hpow, Int.bmod_emod, ← Int.natCast_emod, Nat.mod_eq_of_lt x.isLt]

theorem toNat_mul_eq_emod {w : Nat} (x y : BitVec w) :
    ((x * y).toNat : Int) = ((x.toNat : Int) * y.toNat) % 2 ^ w := by
  rw [BitVec.toNat_mul]
  push_cast
  rfl

/-- R224: the product modulo 2^w does not depend on the reading of its operands. -/
theorem toNat_mul_eq_toInt_emod {w : Nat} (x y : BitVec w) :
    ((x * y).toNat : Int) = (x.toInt * y.toInt) % 2 ^ w := by
  rw [Int.mul_emod, toInt_emod_two_pow, toInt_emod_two_pow, toNat_mul_eq_emod]

theorem productU_eq (a b : Word) : ((productU a b).toNat : Int) = ((a.toNat : Int) * b.toNat) % 2 ^ 64 := by
  rw [productU, toNat_mul_eq_emod, BitVec.toNat_setWidth_of_le (by decide), BitVec.toNat_setWidth_of_le (by decide)]

theorem productS_eq (a b : Word) : ((productS a b).toNat : Int) = (a.toInt * b.toInt) % 2 ^ 64 := by
  rw [productS, toNat_mul_eq_toInt_emod, BitVec.toInt_signExtend_of_le (by decide),
    BitVec.toInt_signExtend_of_le (by decide)]

theorem regPair_toNat (s : State) (rdHi rdLo : Reg) : (s.regPair rdHi rdLo).toNat = pairNat s rdHi rdLo := by
  rw [State.regPair, toNat_append_eq_add, pairNat, Nat.add_comm]

/-- Accumulating adds RdHi : RdLo modulo 2^64. -/
theorem accumulate_eq {p : BitVec 64} {x : Int} (h : (p.toNat : Int) = x % 2 ^ 64) (s : State) (rdHi rdLo : Reg) :
    ((p + s.regPair rdHi rdLo).toNat : Int) = (x + pairNat s rdHi rdLo) % 2 ^ 64 := by
  rw [BitVec.toNat_add, regPair_toNat]
  push_cast
  rw [h]
  exact Int.emod_add_emod ..

/-- The two halves of a 64-bit result are the result. -/
theorem halves_toNat (p : BitVec 64) :
    ((p.extractLsb' 32 32).toNat * 2 ^ 32 + (p.extractLsb' 0 32).toNat : Int) = p.toNat := by
  have hp := p.isLt
  rw [BitVec.extractLsb'_toNat, BitVec.extractLsb'_toNat, Nat.shiftRight_eq_div_pow, Nat.shiftRight_zero]
  omega

/-! ### The two skeletons -/

theorem ne_regPC_of_mulOk {rd rs rm : Reg} (h : mulOk rd rs rm = true) : rd ≠ regPC := by
  simp only [mulOk, noPc, List.all_cons, Bool.and_eq_true, bne_iff_ne] at h
  exact h.1.1

theorem multiplyFlags_of_withMulFlags (s : State) (sf n z : Bool) (r : Reg) (v : Word) :
    MultiplyFlags s ((s.advance.withMulFlags sf n z).setReg r v) sf n z := by
  unfold MultiplyFlags
  rw [State.setReg_flags, State.setReg_mulDraws]
  cases sf
  · exact ⟨rfl, rfl⟩
  · exact ⟨rfl, rfl, rfl, rfl⟩

/-- A multiply with a 32-bit result whose check passes completes with its result, its flags and the frame. -/
theorem multiplyCompletes_of_mul32 {i : Instr} {s : State} {sf : Bool} {rd : Reg} {o : Option Fault} {value : Word}
    {v : Nat} (hexec : exec i s = s.mul32 i.cond sf o rd value) (ho : i.wellFormed = true → o = none)
    (hrd : i.wellFormed = true → rd ≠ regPC) (hv : value.toNat = v % 2 ^ 32) : MultiplyCompletes i s sf rd v := by
  intro hc hw
  have hpc := hrd hw
  refine ⟨_, hexec.trans ((State.mul32_eq_next_iff ..).2 (.inr ⟨hc, ho hw, rfl⟩)), ?_, ?_, fun r hr hne => ?_, ?_,
    fun a => ?_, ?_⟩
  · rw [State.setReg_pc_of_ne hpc, State.withMulFlags_pc, State.advance_pc]
  · rw [State.reg_setReg_self hpc, hv]
  · rw [State.reg_setReg_ne hr hne, State.reg_withMulFlags, State.reg_advance hr]
  · rw [← hv, ← beq_zero_eq_decide, ← BitVec.msb_eq_decide value]
    exact multiplyFlags_of_withMulFlags s sf _ _ rd value
  · rw [State.setReg_mem, State.withMulFlags_mem, State.advance_mem]
  · rw [State.setReg_cfg, State.withMulFlags_cfg, State.advance_cfg]

theorem exec_mul (s : State) (c : Cond) (sf : Bool) (rd rn rs rm : Reg) :
    exec (.mul c sf rd rn rs rm) s = s.mul32 c sf (mulCheck rd rm [rd, rm, rs]) rd (s.reg rm * s.reg rs) := rfl

theorem exec_mla (s : State) (c : Cond) (sf : Bool) (rd rn rs rm : Reg) :
    exec (.mla c sf rd rn rs rm) s =
      s.mul32 c sf (mulCheck rd rm [rd, rm, rs, rn]) rd (s.reg rm * s.reg rs + s.reg rn) := rfl

/-- Settles O41: the operand check passes on well-formed operands, and words multiply and add modulo 2^32. -/
theorem multiplyResults : Obligations.MultiplyResults := by
  unfold Obligations.MultiplyResults
  intro s c sf rd rn rs rm
  constructor
  · refine multiplyCompletes_of_mul32 (exec_mul s c sf rd rn rs rm) (fun hw => ?_) ne_regPC_of_mulOk
      (BitVec.toNat_mul _ _)
    rw [mulCheck_eq_of_mul]
    exact if_pos hw
  · refine multiplyCompletes_of_mul32 (exec_mla s c sf rd rn rs rm) (fun hw => ?_)
      (fun hw => ne_regPC_of_mulOk (Bool.and_eq_true_iff.1 hw).1) ?_
    · rw [mulCheck_eq_of_mla]
      exact if_pos hw
    · rw [BitVec.toNat_add, BitVec.toNat_mul, Nat.mod_add_mod]

/-- Settles O42: both readings of the operands give the product modulo 2^32. -/
theorem multiplyIsSignAgnostic : Obligations.MultiplyIsSignAgnostic := by
  unfold Obligations.MultiplyIsSignAgnostic
  intro s t c sf rd rn rs rm hc h
  rw [exec_mul, State.mul32_eq_next_iff] at h
  obtain ⟨hc', -⟩ | ⟨-, hcheck, rfl⟩ := h
  · rw [hc] at hc'; cases hc'
  have hrd : rd ≠ regPC := ((mulCheck_eq_none_iff ..).1 hcheck).2 rd (List.mem_cons_self ..)
  rw [State.reg_setReg_self hrd]
  exact ⟨toNat_mul_eq_toInt_emod _ _, toNat_mul_eq_emod _ _⟩

/-! ### The long multiplies -/

theorem long_beq_zero_eq_decide (p : BitVec 64) : (p == 0#64) = decide (p.toNat = 0) := by
  rw [Bool.eq_iff_iff, beq_iff_eq, decide_eq_true_iff, BitVec.toNat_eq]
  rfl

theorem ne_of_longMulOk {rdHi rdLo rs rm : Reg} (h : longMulOk rdHi rdLo rs rm = true) :
    rdHi ≠ regPC ∧ rdLo ≠ regPC ∧ rdHi ≠ rdLo := by
  simp only [longMulOk, noPc, List.all_cons, Bool.and_eq_true, bne_iff_ne] at h
  obtain ⟨⟨⟨⟨hhi, hlo, -⟩, hne⟩, -⟩, -⟩ := h
  exact ⟨hhi, hlo, hne⟩

/-- A long multiply that is admitted and well formed completes with its result, its flags and the frame. -/
theorem longMultiplyCompletes_of_mul64 {i : Instr} {s : State} {sf : Bool} {rdHi rdLo rs rm : Reg} {p : BitVec 64}
    {x : Int} (hexec : exec i s = s.mul64 i.cond sf rdHi rdLo rs rm p) (hwf : i.wellFormed = longMulOk rdHi rdLo rs rm)
    (hp : (p.toNat : Int) = x % 2 ^ 64) : LongMultiplyCompletes i s sf rdHi rdLo x := by
  intro hc hw hadmit
  rw [hwf] at hw
  obtain ⟨hhi, hlo, hne⟩ := ne_of_longMulOk hw
  refine ⟨_, hexec.trans ((State.mul64_eq_next_iff ..).2
    (.inr ⟨hc, ⟨hadmit, (longMulCheck_eq_none_iff ..).2 hw⟩, rfl⟩)), ?_, ?_, fun r hr hnehi hnelo => ?_, ?_,
    fun a => ?_, ?_⟩
  · rw [State.setReg_pc_of_ne hlo, State.setReg_pc_of_ne hhi, State.withMulFlags_pc, State.advance_pc]
  · rw [State.reg_setReg_self hlo, State.reg_setReg_ne hhi hne, State.reg_setReg_self hhi, halves_toNat, hp]
  · rw [State.reg_setReg_ne hr hnelo, State.reg_setReg_ne hr hnehi, State.reg_withMulFlags, State.reg_advance hr]
  · have hn : decide ((2 ^ 63 : Int) ≤ x % 2 ^ 64) = p.msb := by
      rw [← hp, BitVec.msb_eq_decide, decide_eq_decide]
      omega
    have hz : decide (x % 2 ^ 64 = 0) = (p == 0#64) := by
      rw [← hp, long_beq_zero_eq_decide, decide_eq_decide]
      omega
    rw [hn, hz]
    have hflags := multiplyFlags_of_withMulFlags s sf p.msb (p == 0#64) rdHi (p.extractLsb' 32 32)
    unfold MultiplyFlags at hflags ⊢
    rwa [State.setReg_flags, State.setReg_mulDraws]
  · rw [State.setReg_mem, State.setReg_mem, State.withMulFlags_mem, State.advance_mem]
  · rw [State.setReg_cfg, State.setReg_cfg, State.withMulFlags_cfg, State.advance_cfg]

/-- Settles O43: the four results as integers modulo 2^64. -/
theorem longMultiplyResults : Obligations.LongMultiplyResults := by
  unfold Obligations.LongMultiplyResults
  intro s c sf rdHi rdLo rs rm
  have hU := productU_eq (s.reg rm) (s.reg rs)
  have hS := productS_eq (s.reg rm) (s.reg rs)
  exact ⟨longMultiplyCompletes_of_mul64 rfl rfl hU,
    longMultiplyCompletes_of_mul64 rfl rfl (accumulate_eq hU s rdHi rdLo),
    longMultiplyCompletes_of_mul64 rfl rfl hS,
    longMultiplyCompletes_of_mul64 rfl rfl (accumulate_eq hS s rdHi rdLo)⟩

end Sys2Proof.Machine
end

section
/-! Proofs of 20_memory.md sections 2 and 8: accesses of another width (R65), and a store seen by a later fetch (R63). -/

namespace Sys2Proof.Machine

open Claims

/-! ### Words and their bytes -/

theorem byteOfWord_readWord (m : Memory) (a : Nat) {j : Nat} (hj : j < 4) :
    byteOfWord (m.readWord a) j = m.read (a + j) := by
  have hbits : ∀ i < 8, (byteOfWord (m.readWord a) j).getLsbD i = (m.read (a + j)).getLsbD i := by
    intro i hi
    simp only [byteOfWord, Memory.readWord, wordOfBytes, BitVec.getLsbD_extractLsb', BitVec.getLsbD_append, hi,
      decide_true, Bool.true_and]
    obtain rfl | rfl | rfl | rfl : j = 0 ∨ j = 1 ∨ j = 2 ∨ j = 3 := by omega
    · rw [if_pos (by omega)]
      congr 1
      omega
    · rw [if_neg (by omega), if_pos (by omega)]
      congr 1
      omega
    · rw [if_neg (by omega), if_neg (by omega), if_pos (by omega)]
      congr 1
      omega
    · rw [if_neg (by omega), if_neg (by omega), if_neg (by omega)]
      congr 1
      omega
  exact BitVec.eq_of_getLsbD_eq hbits

/-- A word whose four bytes are those of `v` reads as `v`. -/
theorem Memory.readWord_eq_of_bytes {m : Memory} {a : Nat} {v : Word}
    (h : ∀ k < 4, m.read (a + k) = byteOfWord v k) : m.readWord a = v := by
  have h0 := h 0 (by decide)
  rw [Nat.add_zero] at h0
  rw [Memory.readWord, h0, h 1 (by decide), h 2 (by decide), h 3 (by decide), wordOfBytes_byteOfWord]

theorem Memory.readWord_store_word (m : Memory) (a : Nat) (v : Word) : (m.store .word a v).readWord a = v :=
  Memory.readWord_eq_of_bytes fun k hk => m.read_store_of_lt .word a v k hk

/-- Memories with the same bytes read the same words. -/
theorem Memory.readWord_congr {m m' : Memory} (h : ∀ a, m'.read a = m.read a) (a : Nat) :
    m'.readWord a = m.readWord a := by
  simp only [Memory.readWord, h]

/-- Settles O12: byte `k` of a stored word is its bits 8k + 7 to 8k, and a byte store changes one byte of a word. -/
theorem mixedWidthAccesses : Obligations.MixedWidthAccesses := by
  unfold Obligations.MixedWidthAccesses
  intro m a v
  have hword : ∀ k < 4, (m.store .word a v).read (a + k) = v.extractLsb' (8 * k) 8 := fun k hk =>
    m.read_store_of_lt .word a v k hk
  refine ⟨hword, fun h hh => ?_, fun k hk j hj => ?_⟩
  · rw [Memory.readHalf, Nat.add_assoc, hword (2 * h + 1) (by omega), hword (2 * h) (by omega),
      extractLsb'_split v (16 * h) 8 8]
    congr 2 <;> omega
  · change byteOfWord ((m.store .byte (a + k) v).readWord a) j =
      if j = k then byteOfWord v 0 else byteOfWord (m.readWord a) j
    rw [byteOfWord_readWord _ a hj, byteOfWord_readWord m a hj]
    split
    · next hjk =>
      subst hjk
      exact m.read_store_of_lt .byte (a + j) v 0 (by decide)
    · next hjk =>
      refine m.read_store_of_not_mem .byte (a + k) v (a + j) ?_
      simp only [Width.bytes]
      omega

/-! ### A store seen by a fetch -/

theorem exec_strImm (s : State) (c : Cond) (ix : Indexing) (rn rd : Reg) (off : BitVec 12) :
    exec (.strImm c ix rn rd off) s =
      s.storeOp c [transferImmCheck ix rn rd true] .word ix rn rd (offsetImm off) := rfl

theorem exec_strReg (s : State) (c : Cond) (ix : Indexing) (rn rd : Reg) (o : ShiftedReg) :
    exec (.strReg c ix rn rd o) s =
      s.storeOp c [rrxCheck s.cfg o, transferRegCheck ix rn rd o.rm true] .word ix rn rd (s.offsetReg o) := rfl

/-- A word store that executes leaves the old value of Rd to be fetched at its address. -/
theorem State.fetchWord_of_storeOp {s t : State} {c : Cond} {l : List (Option Fault)} {ix : Indexing} {rn rd : Reg}
    {off : Word} (hc : condPassed c s.flags = true) (h : s.storeOp c l .word ix rn rd off = .next t) :
    { t with pc := s.transferAddress ix rn off }.fetchWord = s.reg rd := by
  rw [State.storeOp_eq_next_iff] at h
  obtain ⟨hc', -⟩ | ⟨-, -, rfl⟩ := h
  · rw [hc] at hc'; cases hc'
  · exact Memory.readWord_store_word ..

/-- Settles O10: both forms are word stores, and a fetch is a word read at the pc. -/
theorem fetchReadsStoredWord : Obligations.FetchReadsStoredWord := by
  unfold Obligations.FetchReadsStoredWord
  intro s t c ix rn rd hc
  constructor
  · intro off h
    exact State.fetchWord_of_storeOp hc ((exec_strImm s c ix rn rd off).symm.trans h)
  · intro o h
    exact State.fetchWord_of_storeOp hc ((exec_strReg s c ix rn rd o).symm.trans h)

end Sys2Proof.Machine
end

section
/-! Proofs of the family 44_data_transfer.md: indexing (R242), loads, stores and swaps (R244 to R258). -/

namespace Sys2Proof.Machine

open Claims

/-! ### Indexing -/

theorem baseUpdated_eq_true_iff (ix : Indexing) : baseUpdated ix = true ↔ ix.p = false ∨ ix.w = true := by
  rw [baseUpdated, Bool.or_eq_true, Bool.not_eq_true']

theorem baseUpdated_eq_false_iff (ix : Indexing) : baseUpdated ix = false ↔ ix.p = true ∧ ix.w = false := by
  rw [baseUpdated, Bool.or_eq_false_iff, Bool.not_eq_false']

/-- A base that is updated is neither R15 nor Rd (R248). -/
theorem ne_of_baseOk {ix : Indexing} {rn rd : Reg} (h : baseOk ix rn rd = true) (hu : baseUpdated ix = true) :
    rn ≠ regPC ∧ rn ≠ rd := by
  rw [baseOk, show ix.updatesBase = true from hu] at h
  simpa using h

/-- The pc is not moved by the update of a well-formed base. -/
theorem State.updateBase_pc_of_baseOk {ix : Indexing} {rn rd : Reg} (h : baseOk ix rn rd = true) (s : State)
    (v : Word) : (s.updateBase ix rn v).pc = s.pc := by
  rw [State.updateBase_pc, if_neg]
  rintro ⟨hu, hpc⟩
  exact (ne_of_baseOk h hu).1 hpc

/-- The base after its update. -/
theorem State.reg_updateBase_self {ix : Indexing} {rn : Reg} (hrn : rn ≠ regPC) (hu : baseUpdated ix = true)
    (s : State) (v : Word) : (s.updateBase ix rn v).reg rn = v := by
  rw [State.reg_updateBase hrn, if_pos ⟨hu, rfl⟩]

/-- A register that is no updated base. -/
theorem State.reg_updateBase_ne {ix : Indexing} {rn q : Reg} (hq : q ≠ regPC) (h : baseUpdated ix = true → q ≠ rn)
    (s : State) (v : Word) : (s.updateBase ix rn v).reg q = s.reg q := by
  rw [State.reg_updateBase hq, if_neg]
  rintro ⟨hu, rfl⟩
  exact h hu rfl

theorem State.moved_eq_ofInt (s : State) (ix : Indexing) (rn : Reg) (off : Word) :
    s.moved ix rn off =
      BitVec.ofInt 32 (if ix.u then ((s.reg rn).toNat : Int) + off.toNat else ((s.reg rn).toNat : Int) - off.toNat) := by
  unfold State.moved
  have hoff := off.isLt
  cases ix.u
  · change s.reg rn - off = BitVec.ofInt 32 (((s.reg rn).toNat : Int) - off.toNat)
    apply BitVec.eq_of_toNat_eq
    rw [BitVec.toNat_sub, BitVec.toNat_ofInt]
    omega
  · change s.reg rn + off = BitVec.ofInt 32 (((s.reg rn).toNat : Int) + off.toNat)
    apply BitVec.eq_of_toNat_eq
    rw [BitVec.toNat_add, BitVec.toNat_ofInt]
    omega

theorem State.updateBase_eq_ite (s : State) (ix : Indexing) (rn : Reg) (v : Word) :
    s.updateBase ix rn v = if ix.p = true ∧ ix.w = false then s else s.setReg rn v := by
  unfold State.updateBase
  simp only [← baseUpdated_eq_false_iff]
  cases baseUpdated ix <;> rfl

theorem zeroExtend_eq_ofNat {w : Nat} (off : BitVec w) : off.zeroExtend 32 = BitVec.ofNat 32 off.toNat := by
  apply BitVec.eq_of_toNat_eq
  rw [BitVec.toNat_setWidth, BitVec.toNat_ofNat]

/-! ### Loads -/

/-- The word a load gives is the number of the bytes it reads. -/
theorem Memory.load_word (m : Memory) (a : Nat) : m.load .word a = loadedWord m a := by
  rw [loadedWord, ← m.toNat_readWord_eq_bytesAt, BitVec.ofNat_toNat, BitVec.setWidth_eq]
  rfl

theorem Memory.load_byte (m : Memory) (a : Nat) : m.load .byte a = loadedByte m a := by
  rw [loadedByte, ← m.toNat_read_eq_bytesAt]
  exact zeroExtend_eq_ofNat _

theorem Memory.load_half (m : Memory) (a : Nat) : m.load .half a = loadedHalf m a := by
  rw [loadedHalf, ← m.toNat_readHalf_eq_bytesAt]
  exact zeroExtend_eq_ofNat _

theorem Memory.load_signedByte (m : Memory) (a : Nat) : m.load .signedByte a = loadedSignedByte m a := by
  rw [loadedSignedByte, ← m.toNat_read_eq_bytesAt, BitVec.ofNat_toNat, BitVec.setWidth_eq]
  rfl

theorem Memory.load_signedHalf (m : Memory) (a : Nat) : m.load .signedHalf a = loadedSignedHalf m a := by
  rw [loadedSignedHalf, ← m.toNat_readHalf_eq_bytesAt, BitVec.ofNat_toNat, BitVec.setWidth_eq]
  rfl

/-- With the feature, good operands and one good access an instruction completes. -/
theorem exec_completes_of_access {i : Instr} {s : State} {a : Word} {n : Nat} (hw : i.wellFormed = true)
    (hm : i.missingFeature s.cfg = none) (hacc : i.accesses s = [(a, n)]) (ha : Access.allowed s.cfg (a, n)) :
    ∃ t, exec i s = .next t := by
  apply exec_completes
  rw [instrFault_of_wellFormed hm hw, accessFault_eq_none_iff, hacc]
  exact fun x hx => (List.mem_singleton.1 hx).symm ▸ ha

/-- A load completes with its result and frame. -/
theorem loadCompletes_of_loadOp {i : Instr} {s : State} {l : List (Option Fault)} {k : LoadKind} {ix : Indexing}
    {rn rd : Reg} {off : Word} {value : Memory → Nat → Word}
    (hexec : exec i s = s.loadOp i.cond l k ix rn rd off)
    (hacc : i.accesses s = [(s.transferAddress ix rn off, k.width.bytes)])
    (hbase : i.wellFormed = true → baseOk ix rn rd = true) (hvalue : ∀ m a, m.load k a = value m a) :
    LoadCompletes i s ix rn rd off k.width.bytes value := by
  intro hc hw hm ha
  obtain ⟨t, ht⟩ := exec_completes_of_access hw hm hacc ha
  have hok := hbase hw
  have h := ht
  rw [hexec, State.loadOp_eq_next_iff, hvalue] at h
  obtain ⟨hc', -⟩ | ⟨-, -, rfl⟩ := h
  · rw [hc] at hc'; cases hc'
  refine ⟨_, ht, ?_, fun hrd => State.reg_setReg_self hrd _ _, fun hu => ?_, fun r hr hrd hrn => ?_, ?_, fun a => ?_,
    ?_, ?_⟩
  · rw [State.setReg_pc_eq, State.updateBase_pc_of_baseOk hok, State.advance_pc]
  · rw [← baseUpdated_eq_true_iff] at hu
    obtain ⟨hpc, hne⟩ := ne_of_baseOk hok hu
    rw [State.reg_setReg_ne hpc hne, State.reg_updateBase_self hpc hu]
    rfl
  · rw [← baseUpdated_eq_true_iff] at hrn
    rw [State.reg_setReg_ne hr hrd, State.reg_updateBase_ne hr hrn, State.reg_advance hr]
  · rw [State.setReg_flags, State.updateBase_flags, State.advance_flags]
  · rw [State.setReg_mem, State.updateBase_mem, State.advance_mem]
  · rw [State.setReg_cfg, State.updateBase_cfg, State.advance_cfg]
  · rw [State.setReg_mulDraws, State.updateBase_mulDraws, State.advance_mulDraws]

theorem baseOk_of_and {ix : Indexing} {rn rd : Reg} {b : Bool} (h : (baseOk ix rn rd && b) = true) :
    baseOk ix rn rd = true := (Bool.and_eq_true_iff.1 h).1

theorem baseOk_of_and_and {ix : Indexing} {rn rd : Reg} {a b : Bool} (h : (baseOk ix rn rd && a && b) = true) :
    baseOk ix rn rd = true := baseOk_of_and (Bool.and_eq_true_iff.1 h).1

/-- Settles O45: four loads, by the skeleton of a load. -/
theorem loadResults : Obligations.LoadResults := by
  unfold Obligations.LoadResults
  intro s c ix rn rd
  exact ⟨fun off => loadCompletes_of_loadOp (k := .word) rfl rfl id Memory.load_word,
    fun o => loadCompletes_of_loadOp (k := .word) rfl rfl baseOk_of_and Memory.load_word,
    fun off => loadCompletes_of_loadOp (k := .byte) rfl rfl baseOk_of_and Memory.load_byte,
    fun o => loadCompletes_of_loadOp (k := .byte) rfl rfl baseOk_of_and_and Memory.load_byte⟩

/-- Settles O47: six loads of the halfword forms, by the skeleton of a load. -/
theorem halfwordAndSignedLoadResults : Obligations.HalfwordAndSignedLoadResults := by
  unfold Obligations.HalfwordAndSignedLoadResults
  intro s c ix rn rd
  exact ⟨fun off => loadCompletes_of_loadOp (k := .half) rfl rfl baseOk_of_and Memory.load_half,
    fun rm => loadCompletes_of_loadOp (k := .half) rfl rfl baseOk_of_and_and Memory.load_half,
    fun off => loadCompletes_of_loadOp (k := .signedByte) rfl rfl baseOk_of_and Memory.load_signedByte,
    fun rm => loadCompletes_of_loadOp (k := .signedByte) rfl rfl baseOk_of_and_and Memory.load_signedByte,
    fun off => loadCompletes_of_loadOp (k := .signedHalf) rfl rfl baseOk_of_and Memory.load_signedHalf,
    fun rm => loadCompletes_of_loadOp (k := .signedHalf) rfl rfl baseOk_of_and_and Memory.load_signedHalf⟩

theorem exec_ldrbImm (s : State) (c : Cond) (ix : Indexing) (rn rd : Reg) (off : BitVec 12) :
    exec (.ldrbImm c ix rn rd off) s =
      s.loadOp c [transferImmCheck ix rn rd true] .byte ix rn rd (offsetImm off) := rfl

/-- Settles O44: the table is `moved`, `transferAddress` and `updateBase` in arithmetic; an LDRB that completes uses
them, and its Rd is then not R15. -/
theorem indexingTable : Obligations.IndexingTable := by
  unfold Obligations.IndexingTable
  refine ⟨fun s ix rn off => ⟨s.moved_eq_ofInt ix rn off, rfl, s.updateBase_eq_ite ix rn _⟩,
    fun off => zeroExtend_eq_ofNat off, fun off => zeroExtend_eq_ofNat off, ?_⟩
  intro s t c ix rn rd off hc h
  rw [exec_ldrbImm, State.loadOp_eq_next_iff, Memory.load_byte] at h
  obtain ⟨hc', -⟩ | ⟨-, ⟨hcheck, -⟩, rfl⟩ := h
  · rw [hc] at hc'; cases hc'
  have hrd : rd ≠ regPC := by
    rw [firstFault_eq_none_iff] at hcheck
    have := ((transferImmCheck_eq_none_iff ..).1 (hcheck _ (List.mem_singleton_self _))).2
    simpa using this
  refine ⟨State.reg_setReg_self hrd _ _, fun hne hrn => ?_⟩
  rw [State.reg_setReg_ne hrn hne, State.updateBase_eq_ite]
  split
  · exact State.reg_advance hrn s
  · exact State.reg_setReg_self hrn _ _

/-! ### Stores -/

/-- A store completes with its bytes and frame. -/
theorem storeCompletes_of_storeOp {i : Instr} {s : State} {l : List (Option Fault)} {w : Width} {ix : Indexing}
    {rn rd : Reg} {off : Word} (hexec : exec i s = s.storeOp i.cond l w ix rn rd off)
    (hacc : i.accesses s = [(s.transferAddress ix rn off, w.bytes)])
    (hbase : i.wellFormed = true → baseOk ix rn rd = true) : StoreCompletes i s ix rn rd off w.bytes := by
  intro hc hw hm ha
  obtain ⟨t, ht⟩ := exec_completes_of_access hw hm hacc ha
  have hok := hbase hw
  have h := ht
  rw [hexec, State.storeOp_eq_next_iff] at h
  obtain ⟨hc', -⟩ | ⟨-, -, rfl⟩ := h
  · rw [hc] at hc'; cases hc'
  refine ⟨_, ht, ?_, fun k hk => Memory.read_store_eq_byteAt _ _ _ _ hk,
    fun a ha => Memory.read_store_of_not_mem _ _ _ _ a ha, fun hu => ?_, fun r hr hrn => ?_, ?_, ?_, ?_⟩
  · rw [State.withMem_pc, State.updateBase_pc_of_baseOk hok, State.advance_pc]
  · rw [← baseUpdated_eq_true_iff] at hu
    rw [State.reg_withMem, State.reg_updateBase_self (ne_of_baseOk hok hu).1 hu]
    rfl
  · rw [← baseUpdated_eq_true_iff] at hrn
    rw [State.reg_withMem, State.reg_updateBase_ne hr hrn, State.reg_advance hr]
  · rw [State.withMem_flags, State.updateBase_flags, State.advance_flags]
  · rw [State.withMem_cfg, State.updateBase_cfg, State.advance_cfg]
  · rw [State.withMem_mulDraws, State.updateBase_mulDraws, State.advance_mulDraws]

/-- Settles O46: four stores, by the skeleton of a store. -/
theorem storeResults : Obligations.StoreResults := by
  unfold Obligations.StoreResults
  intro s c ix rn rd
  exact ⟨fun off => storeCompletes_of_storeOp (w := .word) rfl rfl baseOk_of_and,
    fun o => storeCompletes_of_storeOp (w := .word) rfl rfl baseOk_of_and_and,
    fun off => storeCompletes_of_storeOp (w := .byte) rfl rfl baseOk_of_and,
    fun o => storeCompletes_of_storeOp (w := .byte) rfl rfl baseOk_of_and_and⟩

/-- Settles O48: the two halfword stores, by the skeleton of a store. -/
theorem halfwordStoreResults : Obligations.HalfwordStoreResults := by
  unfold Obligations.HalfwordStoreResults
  intro s c ix rn rd
  exact ⟨fun off => storeCompletes_of_storeOp (w := .half) rfl rfl baseOk_of_and,
    fun rm => storeCompletes_of_storeOp (w := .half) rfl rfl baseOk_of_and_and⟩

/-! ### Swaps -/

theorem ne_regPC_of_swapOk {rn rd rm : Reg} (h : swapOk rn rd rm = true) : rd ≠ regPC := by
  simp only [swapOk, noPc, List.all_cons, Bool.and_eq_true, bne_iff_ne] at h
  obtain ⟨⟨⟨-, hrd, -⟩, -⟩, -⟩ := h
  exact hrd

/-- A swap completes with its result, its bytes and its frame. -/
theorem swapCompletes_of_swapOp {i : Instr} {s : State} {l : List (Option Fault)} {k : LoadKind} {rn rd rm : Reg}
    (hexec : exec i s = s.swapOp i.cond l k rn rd rm) (hacc : i.accesses s = [(s.reg rn, k.width.bytes)])
    (hwf : i.wellFormed = swapOk rn rd rm)
    (hvalue : ∀ m a, Memory.load m k a = BitVec.ofNat 32 (bytesAt m a k.width.bytes)) :
    SwapCompletes i s rn rd rm k.width.bytes := by
  intro hc hw hm ha
  obtain ⟨t, ht⟩ := exec_completes_of_access hw hm hacc ha
  have hrd := ne_regPC_of_swapOk (hwf ▸ hw)
  have h := ht
  rw [hexec, State.swapOp_eq_next_iff, hvalue] at h
  obtain ⟨hc', -⟩ | ⟨-, -, rfl⟩ := h
  · rw [hc] at hc'; cases hc'
  refine ⟨_, ht, ?_, State.reg_setReg_self hrd _ _, fun j hj => ?_, fun a ha => ?_, fun r hr hne => ?_, ?_, ?_, ?_⟩
  · rw [State.setReg_pc_of_ne hrd, State.withMem_pc, State.advance_pc]
  · rw [State.setReg_mem, State.withMem_mem, Memory.read_store_eq_byteAt _ _ _ _ hj]
  · rw [State.setReg_mem, State.withMem_mem, Memory.read_store_of_not_mem _ _ _ _ a ha]
  · rw [State.reg_setReg_ne hr hne, State.reg_withMem, State.reg_advance hr]
  · rw [State.setReg_flags, State.withMem_flags, State.advance_flags]
  · rw [State.setReg_cfg, State.withMem_cfg, State.advance_cfg]
  · rw [State.setReg_mulDraws, State.withMem_mulDraws, State.advance_mulDraws]

/-- Settles O49: both swaps, by the skeleton of a swap. -/
theorem swapResults : Obligations.SwapResults := by
  unfold Obligations.SwapResults
  intro s c rn rd rm
  exact ⟨swapCompletes_of_swapOp (k := .word) rfl rfl rfl Memory.load_word,
    swapCompletes_of_swapOp (k := .byte) rfl rfl rfl Memory.load_byte⟩

end Sys2Proof.Machine
end

section
/-! Proofs of the family 45_block_transfer.md: addresses (R285), LDM and STM (R286), push and pop (R292). -/

namespace Sys2Proof.Machine

open Claims

/-! ### The place of a register in its list (R285) -/

theorem registersOf_eq_map_filter (list : BitVec 16) :
    registersOf list = ((List.range 16).filter (fun i => list.getLsbD i)).map (BitVec.ofNat 4) := by
  rw [registersOf, ← List.filterMap_eq_map, List.filterMap_filter]
  rfl

theorem length_registersOf (list : BitVec 16) : (registersOf list).length = listedBelow list 16 := by
  rw [registersOf_eq_map_filter, List.length_map, listedBelow]

theorem length_registersOf_le (list : BitVec 16) : (registersOf list).length ≤ 16 := by
  rw [length_registersOf, listedBelow]
  exact (List.length_filter_le _ _).trans_eq List.length_range

theorem registersOf_nodup (list : BitVec 16) : (registersOf list).Nodup :=
  (registersOf_sorted list).imp BitVec.ne_of_lt

/-- A listed register stands behind the listed registers of smaller number. -/
theorem registersOf_eq_append {list : BitVec 16} {r : Reg} (h : list.getLsbD r.toNat = true) :
    ∃ front rest, registersOf list = front ++ r :: rest ∧ front.length = listedBelow list r.toNat := by
  have hlt : r.toNat < 16 := r.isLt
  have hrange : List.range 16 = List.range r.toNat ++ r.toNat :: (List.range (15 - r.toNat)).map (r.toNat + 1 + ·) := by
    rw [show 16 = (r.toNat + 1) + (15 - r.toNat) by omega, List.range_add, List.range_succ, List.append_assoc,
      List.singleton_append]
  have hregs := registersOf_eq_map_filter list
  rw [hrange, List.filter_append, List.filter_cons_of_pos h, List.map_append, List.map_cons, BitVec.ofNat_toNat,
    BitVec.setWidth_eq] at hregs
  exact ⟨_, _, hregs, List.length_map ..⟩

/-- The place of a listed register is the number of listed registers below it. -/
theorem getElem_registersOf {list : BitVec 16} {r : Reg} (h : list.getLsbD r.toNat = true) :
    ∃ hk : listedBelow list r.toNat < (registersOf list).length,
      (registersOf list)[listedBelow list r.toNat]'hk = r := by
  obtain ⟨front, rest, heq, hlen⟩ := registersOf_eq_append h
  simp [heq, ← hlen]

/-- The register at a place of the list has that place. -/
theorem listedBelow_getElem (list : BitVec 16) {k : Nat} (hk : k < (registersOf list).length) :
    listedBelow list ((registersOf list)[k]).toNat = k := by
  obtain ⟨hk', heq⟩ := getElem_registersOf ((mem_registersOf list _).1 (List.getElem_mem hk))
  exact (registersOf_nodup list).getElem_inj_iff.1 heq

/-- Settles O50: the cases of `blockStart` and `blockFinal`, with the length of the list counted. -/
theorem blockAddressTable : Obligations.BlockAddressTable := by
  unfold Obligations.BlockAddressTable
  intro s w rn list
  rw [← length_registersOf]
  exact ⟨rfl, rfl, rfl, rfl, rfl, rfl, rfl, rfl⟩

/-! ### The words of a block transfer -/

theorem State.reg_loadRegs_of_listed {list : BitVec 16} {r : Reg} (h : list.getLsbD r.toNat = true) (hr : r ≠ regPC)
    (m : Memory) (a : Word) (s : State) :
    (State.loadRegs m (registersOf list) a s).reg r =
      m.readWord (a + BitVec.ofNat 32 (4 * listedBelow list r.toNat)).toNat := by
  obtain ⟨hk, heq⟩ := getElem_registersOf h
  have hload := State.reg_loadRegs_getElem m _ (registersOf_nodup list) a s _ hk (by rwa [heq])
  rwa [heq] at hload

theorem State.reg_loadRegs_of_not_listed {list : BitVec 16} {r : Reg} (h : list.getLsbD r.toNat = false)
    (hr : r ≠ regPC) (m : Memory) (a : Word) (s : State) :
    (State.loadRegs m (registersOf list) a s).reg r = s.reg r := by
  refine State.reg_loadRegs_of_not_mem hr m _ (fun hmem => ?_) a s
  rw [mem_registersOf, h] at hmem
  cases hmem

theorem State.loadRegs_registersOf_pc (m : Memory) (list : BitVec 16) (a : Word) (s : State) :
    (State.loadRegs m (registersOf list) a s).pc =
      if list.getLsbD 15 then m.readWord (a + BitVec.ofNat 32 (4 * listedBelow list regPC.toNat)).toNat
      else s.pc := by
  have hmem : regPC ∈ registersOf list ↔ list.getLsbD 15 = true := mem_registersOf list regPC
  split
  · next h =>
    obtain ⟨hk, heq⟩ := getElem_registersOf (r := regPC) h
    exact State.loadRegs_pc_getElem m _ (registersOf_nodup list) a s _ hk heq
  · next h => exact State.loadRegs_pc_of_not_mem m _ (fun hin => h (hmem.1 hin)) a s

theorem State.read_storeRegs_of_listed {list : BitVec 16} {r : Reg} (h : list.getLsbD r.toNat = true) {a : Word}
    (ha : a.toNat % 4 = 0) (s : State) (m : Memory) {k : Nat} (hk : k < 4) :
    (s.storeRegs (registersOf list) a m).read ((a + BitVec.ofNat 32 (4 * listedBelow list r.toNat)).toNat + k) =
      byteOfWord (s.reg r) k := by
  obtain ⟨hplace, heq⟩ := getElem_registersOf h
  rw [State.read_storeRegs_getElem s _ (length_registersOf_le list) a ha m _ hplace k hk, heq]

/-- The checks of a block transfer, taken apart. -/
theorem State.firstFault_blockChecks_eq_none_iff (s : State) (ix : Indexing) (rn : Reg) (list : BitVec 16)
    (store : Bool) :
    firstFault (s.blockChecks ix rn list store) = none ↔
      (blockOk ix rn list = true ∧ (store && list.getLsbD 15) = false) ∧
        (s.blockStart ix rn list).toNat % 4 = 0 ∧
        ∀ k < (registersOf list).length, inMemory s.cfg (s.blockStart ix rn list + BitVec.ofNat 32 (4 * k)) 4 = true := by
  rw [State.blockChecks, firstFault_append, Option.or_eq_none_iff, firstFault_blockRangeChecks_eq_none_iff,
    firstFault_cons, firstFault_cons, Option.or_eq_none_iff, blockCheck_eq_none_iff, and_assoc]
  simp [alignFault]

/-- R290: the base is not R15, and with write-back it is not in the list. -/
theorem of_blockOk {ix : Indexing} {rn : Reg} {list : BitVec 16} (h : blockOk ix rn list = true) :
    rn ≠ regPC ∧ (ix.w = true → list.getLsbD rn.toNat = false) := by
  simp only [blockOk, Bool.and_eq_true, bne_iff_ne, Bool.not_eq_true', Bool.and_eq_false_imp] at h
  obtain ⟨⟨-, hrn⟩, hw⟩ := h
  exact ⟨hrn, hw⟩

theorem State.writeBack_pc_of_ne {rn : Reg} (h : rn ≠ regPC) (s : State) (ix : Indexing) (v : Word) :
    (s.writeBack ix rn v).pc = s.pc := by
  rw [State.writeBack_pc, if_neg fun hw => h hw.2]

theorem State.reg_writeBack_self {rn : Reg} (h : rn ≠ regPC) {ix : Indexing} (hw : ix.w = true) (s : State) (v : Word) :
    (s.writeBack ix rn v).reg rn = v := by
  rw [State.reg_writeBack h, if_pos ⟨hw, rfl⟩]

theorem State.reg_writeBack_ne {rn r : Reg} (hr : r ≠ regPC) {ix : Indexing} (h : ix.w = true → r ≠ rn) (s : State)
    (v : Word) : (s.writeBack ix rn v).reg r = s.reg r := by
  rw [State.reg_writeBack hr, if_neg fun hw => h hw.1 hw.2]

/-! ### LDM and STM -/

theorem exec_ldm (s : State) (c : Cond) (ix : Indexing) (rn : Reg) (list : BitVec 16) :
    exec (.ldm c ix rn list) s = s.execute c (s.blockChecks ix rn list false)
      (State.loadRegs s.mem (registersOf list) (s.blockStart ix rn list)
        (s.advance.writeBack ix rn (s.blockFinal ix rn list))) := rfl

theorem exec_stm (s : State) (c : Cond) (ix : Indexing) (rn : Reg) (list : BitVec 16) :
    exec (.stm c ix rn list) s = s.execute c (s.blockChecks ix rn list true)
      ((s.advance.writeBack ix rn (s.blockFinal ix rn list)).withMem
        (s.storeRegs (registersOf list) (s.blockStart ix rn list) s.mem)) := rfl

/-- An instruction that executes and has good operands and accesses passes its checks. -/
theorem execute_passes {i : Instr} {s u : State} {checks : List (Option Fault)}
    (hexec : exec i s = s.execute i.cond checks u) (hc : condPassed i.cond s.flags = true)
    (hm : i.missingFeature s.cfg = none) (hw : i.wellFormed = true)
    (ha : ∀ x ∈ i.accesses s, Access.allowed s.cfg x) : firstFault checks = none ∧ exec i s = .next u := by
  obtain ⟨t, ht⟩ := exec_completes ((instrFault_of_wellFormed hm hw).trans ((accessFault_eq_none_iff s.cfg _).2 ha))
  have h := ht
  rw [hexec, State.execute_eq_next_iff] at h
  obtain ⟨hc', -⟩ | ⟨-, hnone, rfl⟩ := h
  · rw [hc] at hc'; cases hc'
  · exact ⟨hnone, ht⟩

/-- Settles O51: what `loadRegs` leaves in each register, over the write-back. -/
theorem loadMultipleResult : Obligations.LoadMultipleResult := by
  unfold Obligations.LoadMultipleResult
  intro s c ix rn list hc hw ha
  obtain ⟨-, ht⟩ := execute_passes (exec_ldm s c ix rn list) hc rfl hw ha
  obtain ⟨hrn, hlisted⟩ := of_blockOk hw
  refine ⟨_, ht, ?_, fun r hr hin => ?_, fun hix => ?_, fun r hr hout hne => ?_, ?_, fun a => ?_, ?_, ?_⟩
  · rw [State.loadRegs_registersOf_pc, State.writeBack_pc_of_ne hrn, ← Memory.load_word]
    rfl
  · rw [State.reg_loadRegs_of_listed hin hr, ← Memory.load_word]
    rfl
  · rw [State.reg_loadRegs_of_not_listed (hlisted hix) hrn, State.reg_writeBack_self hrn hix]
  · rw [State.reg_loadRegs_of_not_listed hout hr, State.reg_writeBack_ne hr hne, State.reg_advance hr]
  · rw [State.loadRegs_flags, State.writeBack_flags, State.advance_flags]
  · rw [State.loadRegs_mem, State.writeBack_mem, State.advance_mem]
  · rw [State.loadRegs_cfg, State.writeBack_cfg, State.advance_cfg]
  · rw [State.loadRegs_mulDraws, State.writeBack_mulDraws, State.advance_mulDraws]

/-- Settles O52: what `storeRegs` leaves in each byte, and the write-back. -/
theorem storeMultipleResult : Obligations.StoreMultipleResult := by
  unfold Obligations.StoreMultipleResult
  intro s c ix rn list hc hw ha
  obtain ⟨hchecks, ht⟩ := execute_passes (exec_stm s c ix rn list) hc rfl hw ha
  obtain ⟨⟨hok, -⟩, halign, -⟩ := (s.firstFault_blockChecks_eq_none_iff ix rn list true).1 hchecks
  obtain ⟨hrn, -⟩ := of_blockOk hok
  refine ⟨_, ht, ?_, fun r hin k hk => ?_, fun a hout => ?_, fun hix => ?_, fun r hr hne => ?_, ?_, ?_, ?_⟩
  · rw [State.withMem_pc, State.writeBack_pc_of_ne hrn, State.advance_pc]
  · rw [← byteOfWord_eq_byteAt]
    exact State.read_storeRegs_of_listed hin halign s s.mem hk
  · refine State.read_storeRegs_of_not_mem s _ _ s.mem a fun k hk => ?_
    have hr := hout _ ((mem_registersOf list _).1 (List.getElem_mem hk))
    rwa [blockAddress, listedBelow_getElem list hk] at hr
  · rw [State.reg_withMem, State.reg_writeBack_self hrn hix]
  · rw [State.reg_withMem, State.reg_writeBack_ne hr hne, State.reg_advance hr]
  · rw [State.withMem_flags, State.writeBack_flags, State.advance_flags]
  · rw [State.withMem_cfg, State.writeBack_cfg, State.advance_cfg]
  · rw [State.withMem_mulDraws, State.writeBack_mulDraws, State.advance_mulDraws]

/-! ### Push and pop (R292) -/

/-- From the base a transfer leaves, the opposite transfer starts where it started. -/
theorem State.blockStart_inverse {s s' : State} {p u : Bool} {rn : Reg} {list : BitVec 16}
    (h : s'.reg rn = s.blockFinal ⟨p, u, true⟩ rn list) :
    s'.blockStart ⟨!p, !u, true⟩ rn list = s.blockStart ⟨p, u, true⟩ rn list := by
  cases p <;> cases u <;> simp [State.blockStart, State.blockFinal, h]

/-- From the base a transfer leaves, the opposite transfer leaves the base it began with. -/
theorem State.blockFinal_inverse {s s' : State} {p u : Bool} {rn : Reg} {list : BitVec 16}
    (h : s'.reg rn = s.blockFinal ⟨p, u, true⟩ rn list) :
    s'.blockFinal ⟨!p, !u, true⟩ rn list = s.reg rn := by
  cases u <;> simp [State.blockFinal, h]

/-- Settles O54: the LDM reads the words the STM wrote, for both start at one address; its checks are those of the
STM but for R15 in the list. -/
theorem popUndoesPush : Obligations.PopUndoesPush := by
  unfold Obligations.PopUndoesPush
  intro s s1 s2 c c' p u rn list hc hpush hc' hcfg hmem hbase
  rw [exec_stm, State.execute_eq_next_iff] at hpush
  obtain ⟨hnot, -⟩ | ⟨-, hchecks, rfl⟩ := hpush
  · rw [hc] at hnot; cases hnot
  rw [State.firstFault_blockChecks_eq_none_iff] at hchecks
  obtain ⟨⟨hok, hnopc⟩, halign, hrange⟩ := hchecks
  obtain ⟨hrn, hlisted⟩ := of_blockOk hok
  rw [State.reg_withMem, State.reg_writeBack_self hrn rfl] at hbase
  rw [State.withMem_cfg, State.writeBack_cfg, State.advance_cfg] at hcfg
  have hpass : firstFault (s2.blockChecks ⟨!p, !u, true⟩ rn list false) = none := by
    rw [State.firstFault_blockChecks_eq_none_iff, State.blockStart_inverse hbase, hcfg]
    exact ⟨⟨hok, rfl⟩, halign, hrange⟩
  refine ⟨_, State.execute_of_passed hc' hpass, fun r hr => ?_, ?_⟩
  · have hne : r ≠ regPC := by
      rintro rfl
      rw [Bool.true_and] at hnopc
      exact Bool.noConfusion (hnopc.symm.trans hr)
    rw [State.reg_loadRegs_of_listed hr hne, Memory.readWord_congr hmem, State.blockStart_inverse hbase]
    exact Memory.readWord_eq_of_bytes fun k hk => State.read_storeRegs_of_listed hr halign s s.mem hk
  · rw [State.reg_loadRegs_of_not_listed (hlisted rfl) hrn, State.reg_writeBack_self hrn rfl,
      State.blockFinal_inverse hbase]

end Sys2Proof.Machine
end

section
/-! Proofs of the families 42_branch.md (R200 to R205) and 46_status_register.md (R301 to R303). -/

namespace Sys2Proof.Machine

open Claims

/-! ### Branches -/

theorem State.branchTarget_eq_ofInt (s : State) (off : BitVec 24) :
    s.branchTarget off = BitVec.ofInt 32 (s.pc.toNat + 8 + 4 * off.toInt) := by
  have hoff : BitVec.ofInt 32 off.toInt = off.signExtend 32 := rfl
  have hpc : BitVec.ofInt 32 s.pc.toNat = s.pc := by
    rw [BitVec.ofInt_natCast, BitVec.ofNat_toNat, BitVec.setWidth_eq]
  rw [BitVec.ofInt_add, BitVec.ofInt_add, BitVec.ofInt_mul, hoff, hpc]
  rfl

theorem exec_bx (s : State) (c : Cond) (rn : Reg) :
    exec (.bx c rn) s = s.execute c [] (s.setReg regPC (s.reg rn)) := rfl

theorem sameButRegisters_setReg_regPC (s : State) (v : Word) : SameButRegisters s (s.setReg regPC v) :=
  ⟨rfl, fun _ => rfl, rfl, rfl⟩

/-- A write of the pc leaves every register but R15. -/
theorem State.reg_setReg_regPC {r : Reg} (hr : r ≠ regPC) (s : State) (v : Word) :
    (s.setReg regPC v).reg r = s.reg r := State.reg_setReg_ne hr hr s v

theorem regLR_ne_regPC : regLR ≠ regPC := by decide

/-- Settles O55: the three branches have no checks; B and BX write the pc, BL also R14. -/
theorem branchResults : Obligations.BranchResults := by
  unfold Obligations.BranchResults
  intro s c hc
  refine ⟨fun off => ⟨_, (exec_b s c off).trans (State.execute_of_passed hc rfl), s.branchTarget_eq_ofInt off,
      fun r hr => State.reg_setReg_regPC hr s _, sameButRegisters_setReg_regPC s _⟩,
    fun off => ⟨_, (exec_bl s c off).trans (State.execute_of_passed hc rfl), s.branchTarget_eq_ofInt off, ?_,
      fun r hr hlr => ?_, rfl, fun _ => rfl, rfl, rfl⟩,
    fun rn => ⟨_, (exec_bx s c rn).trans (State.execute_of_passed hc rfl), ?_,
      fun r hr => State.reg_setReg_regPC hr s _, sameButRegisters_setReg_regPC s _⟩⟩
  · rw [State.reg_setReg_regPC regLR_ne_regPC, State.reg_setReg_self regLR_ne_regPC]
  · rw [State.reg_setReg_regPC hr, State.reg_setReg_ne hr hlr]
  · rw [State.setReg_regPC]
    split
    · next h => rw [h, State.reg_regPC]
    · rfl

/-- Settles O56: BL leaves pc + 4 in R14 (O55), BX goes to R14 (O55), and LSL #0 in a MOV (O35) passes R14 on. -/
theorem returnResumesAfterCall : Obligations.ReturnResumesAfterCall := by
  unfold Obligations.ReturnResumesAfterCall
  intro s s1 s2 c c' off rn hc hcall hlr hc'
  obtain ⟨-, hbl, -⟩ := branchResults s c hc
  obtain ⟨t, ht, -, hlink, -⟩ := hbl off
  rw [Host.Outcome.next.inj (hcall.symm.trans ht), hlink] at hlr
  constructor
  · obtain ⟨-, -, hbx⟩ := branchResults s2 c' hc'
    obtain ⟨u, hu, hpc, -⟩ := hbx regLR
    exact ⟨u, hu, by rw [hpc, if_neg regLR_ne_regPC, hlr]⟩
  · obtain ⟨hmov, -⟩ := moveResults
    obtain ⟨-, hreg3, -⟩ := hmov s2 c' false rn regPC hc' (fun h => Bool.noConfusion h.1)
    obtain ⟨u, hu, hpc, -⟩ := hreg3 ⟨0#5, .lsl, regLR⟩ (fun h => Bool.noConfusion h)
    refine ⟨u, hu, hpc.trans ?_⟩
    rw [if_pos rfl]
    exact hlr

/-! ### The status register -/

/-- The PSR image as a sum of its bits (R301). -/
theorem psrImage_eq_ofNat (f : Flags) (low : BitVec 28) :
    psrImage f low = BitVec.ofNat 32 (f.n.toNat * 2 ^ 31 + f.z.toNat * 2 ^ 30 + f.c.toNat * 2 ^ 29 +
      f.v.toNat * 2 ^ 28 + low.toNat) := by
  have himage : (psrImage f low).toNat = f.n.toNat * 2 ^ 31 + f.z.toNat * 2 ^ 30 + f.c.toNat * 2 ^ 29 +
      f.v.toNat * 2 ^ 28 + low.toNat := by
    simp only [psrImage, toNat_append_eq_add, BitVec.toNat_ofBool]
    omega
  rw [← himage, BitVec.ofNat_toNat, BitVec.setWidth_eq]

/-- The image of the flags that an MSR wrote. -/
theorem psrImage_flagsOfPsr (v : Word) (low : BitVec 28) :
    psrImage (flagsOfPsr v) low = v.extractLsb' 28 4 ++ low := by
  simp (disch := decide) only [psrImage, flagsOfPsr, ofBool_getLsbD,
    BitVec.extractLsb'_append_extractLsb'_eq_extractLsb']

theorem wrote_setReg (s : State) (rd : Reg) (v : Word) : Wrote s (s.advance.setReg rd v) rd v s.flags := by
  refine ⟨?_, fun hr => State.reg_setReg_self hr _ _, fun q hq hne => ?_, ?_, fun a => ?_, ?_, ?_⟩
  · rw [State.setReg_pc_eq, State.advance_pc]
  · rw [State.reg_setReg_ne hq hne, State.reg_advance hq]
  · rw [State.setReg_flags, State.advance_flags]
  · rw [State.setReg_mem, State.advance_mem]
  · rw [State.setReg_cfg, State.advance_cfg]
  · rw [State.setReg_mulDraws, State.advance_mulDraws]

theorem psrCheck_of_ne {r : Reg} (h : r ≠ regPC) : psrCheck r = none := by
  rw [psrCheck_eq, if_pos (bne_iff_ne.2 h)]

/-- An MRS that is admitted, with bit 22 = 0, writes the image to Rd. -/
theorem exec_mrs_of_admitted {s : State} {c : Cond} {rd : Reg} (hc : condPassed c s.flags = true)
    (hadmit : s.cfg.admitPsr = true) (hrd : rd ≠ regPC) :
    exec (.mrs c false rd) s = .next (s.advance.setReg rd (psrImage s.flags s.cfg.psrLow)) := by
  refine State.execute_of_passed hc ?_
  rw [hadmit, psrCheck_of_ne hrd]
  rfl

theorem exec_msrReg (s : State) (c : Cond) (rm : Reg) :
    exec (.msrReg c false rm) s = s.msrOp c false [psrCheck rm] (s.reg rm) := rfl

/-- An MSR that is admitted, with bit 22 = 0 and a good operand, writes the flags. -/
theorem State.msrOp_wroteFlags {s : State} {c : Cond} {l : List (Option Fault)} (hc : condPassed c s.flags = true)
    (hadmit : s.cfg.admitPsr = true) (hl : firstFault l = none) (v : Word) :
    ∃ t, s.msrOp c false l v = .next t ∧ WroteFlags s t (flagsOfPsr v) :=
  ⟨_, (State.msrOp_eq_next_iff ..).2 (.inr ⟨hc, ⟨⟨hadmit, rfl⟩, hl⟩, rfl⟩), rfl, fun _ hr => State.reg_advance hr s, rfl,
    fun _ => rfl, rfl, rfl⟩

/-- Settles O57: MRS writes the image, the three MSR forms are one operation. -/
theorem statusRegisterResults : Obligations.StatusRegisterResults := by
  unfold Obligations.StatusRegisterResults
  intro s c hc hadmit
  refine ⟨fun rd hrd => ⟨_, exec_mrs_of_admitted hc hadmit hrd, ?_⟩, fun rm hrm => ?_, fun o => ?_⟩
  · rw [psrImage_eq_ofNat]
    exact wrote_setReg s rd _
  · have hl : firstFault [psrCheck rm] = none := by rw [psrCheck_of_ne hrm]; rfl
    exact ⟨State.msrOp_wroteFlags hc hadmit hl _, State.msrOp_wroteFlags hc hadmit hl _⟩
  · exact State.msrOp_wroteFlags (l := []) hc hadmit rfl _

/-- Settles O59: an MSR that executed was admitted and left the flags of its value, so the MRS is admitted too and gives
their image. -/
theorem statusReadsBackWhatWasWritten : Obligations.StatusReadsBackWhatWasWritten := by
  unfold Obligations.StatusReadsBackWhatWasWritten
  intro s t c c' rm rd hc hmsr hc' hrd
  rw [exec_msrReg, State.msrOp_eq_next_iff] at hmsr
  obtain ⟨hnot, -⟩ | ⟨-, ⟨⟨hadmit, -⟩, -⟩, rfl⟩ := hmsr
  · rw [hc] at hnot; cases hnot
  refine ⟨_, exec_mrs_of_admitted hc' hadmit hrd, ?_⟩
  rw [State.reg_setReg_self hrd, ← psrImage_flagsOfPsr]
  rfl

end Sys2Proof.Machine
end
